-- ==== Sys2Proof/Word.lean ====
section
/-! DEFINITION. The widths of the machine: a channel, a size or scan coordinate, a register or pixel word
(spec/00_scope.md R9, spec/10_state.md R24). -/

namespace Sys2Proof

/-- One channel of a pixel: `CH_BITS` = 8 (R9). -/
abbrev Byte := BitVec 8

/-- A size or a scan coordinate: `DIM_BITS` = 16 (R9). -/
abbrev Half := BitVec 16

/-- A pixel word or the data of one register access: 32 bits (R9, R24). -/
abbrev Word := BitVec 32

end Sys2Proof
end

