-- ==== Sys2Proof/Syntax.lean ====
section
/-! DEFINITION. What the machine can be given: the seventeen instructions of spec/opcode_table.json, the encoded words
they come in, and the moves of the host and of the environment. -/

namespace Sys2Proof

/-- The instructions: one constructor per row of the opcode table (R71, R73). No operation has an operand field
(R72). The fifteen transforms are operation codes held in register OP; START and CLR are commands written to CTRL. -/
inductive Instr where
  | gray
  | pgray
  | rgb2ycbcr
  | ycbcr2rgb
  | rgb2yuv
  | yuv2rgb
  | rgb2xyz
  | xyz2rgb
  | rgb2hls
  | hls2rgb
  | rgb2hsv
  | hsv2rgb
  | rgb2ycocg
  | ycocg2rgb
  | gamma
  | start
  | clr
  deriving DecidableEq, Repr

/-- An encoded instruction in one of the two formats of R70: an operation code, or a command word. -/
inductive Code where
  /-- Format OP4: the value of register OP. -/
  | op4 (op : BitVec 4)
  /-- Format CTRL: the value written to register CTRL. -/
  | ctrl (c : Word)
  deriving DecidableEq, Repr

/-- The eight control registers, in the order of their indices (R24). -/
inductive CtrlReg where
  | ctrl
  | op
  | width
  | height
  | status
  | errcode
  | scanx
  | scany
  deriving DecidableEq, Repr

/-- The two raster memories (R35). -/
inductive Space where
  | imem
  | omem
  deriving DecidableEq, Repr

/-- The moves of the host, exactly those of R190. -/
inductive HostMove where
  /-- `WR idx, v` (R191). -/
  | writeReg (idx : BitVec 3) (v : Word)
  /-- `RD idx` (R192). -/
  | readReg (idx : BitVec 3)
  /-- `IMEM[i] = w` or `OMEM[i] = w` (R196, R197). -/
  | writeMem (sp : Space) (i : Nat) (w : Word)
  /-- A read of `IMEM[i]` or `OMEM[i]` (R196, R197). -/
  | readMem (sp : Space) (i : Nat)
  deriving DecidableEq, Repr

/-- One turn of the system: a host move, an engine step, or the environment's reset (R190, R235). The list of turns
in State is the interleaving. DESIGN CHOICE, log entry 1. -/
inductive Turn where
  | host (m : HostMove)
  | engine
  | reset
  deriving DecidableEq, Repr

end Sys2Proof
end

