-- ==== Sys2Proof/WellFormed.lean ====
section
/-! DEFINITION. Well-formed instructions, encoded words and host moves. -/

namespace Sys2Proof

/-- An instruction has no operand (R72), so there is nothing in one that could be ill-formed: every constructor is
listed, so that an operand added later meets its check here. -/
def Instr.wf : Instr → Bool
  | .gray => true
  | .pgray => true
  | .rgb2ycbcr => true
  | .ycbcr2rgb => true
  | .rgb2yuv => true
  | .yuv2rgb => true
  | .rgb2xyz => true
  | .xyz2rgb => true
  | .rgb2hls => true
  | .hls2rgb => true
  | .rgb2hsv => true
  | .hsv2rgb => true
  | .rgb2ycocg => true
  | .ycocg2rgb => true
  | .gamma => true
  | .start => true
  | .clr => true

/-- An encoded word that is an instruction: any operation code but the reserved 15 (R75), any command word with a
command bit set (R71). -/
def Code.wf : Code → Bool
  | .op4 op => op != 15#4
  | .ctrl c => c &&& 3#32 != 0#32

/-- A legal host move: a memory access has an index below `MEM_PIXELS` (R52, R196, R197); a register access is
always legal, since the index is 3 bits wide (R33). -/
def HostMove.wf (memPixels : Nat) : HostMove → Bool
  | .writeReg _ _ => true
  | .readReg _ => true
  | .writeMem _ i _ => decide (i < memPixels)
  | .readMem _ i => decide (i < memPixels)

/-- A legal turn: a host turn makes a legal move (R190). -/
def Turn.wf (memPixels : Nat) : Turn → Bool
  | .host m => m.wf memPixels
  | .engine => true
  | .reset => true

end Sys2Proof
end

