-- ==== Sys2Proof/Decode.lean ====
section
/-! DEFINITION. The decoder, total on every operation code and every command word (spec/30_encoding.md R71, R73, R74),
and the encoder, from the same tables. -/

namespace Sys2Proof

/-- Why an encoded word is no instruction. -/
inductive Reject where
  /-- Operation code 15 (R75). Safe: START refuses it with ILLEGAL_OP, and no run has it. -/
  | reservedOp
  /-- A command word with both command bits 0 (R71). Safe: the write does nothing. -/
  | noCommand
  deriving DecidableEq, Repr

/-- What the decoder answers. -/
inductive Decoded where
  | instr (i : Instr)
  | rejected (why : Reject)
  deriving DecidableEq, Repr

/-- The operation codes of R73; code 15 is reserved (R75). -/
def decodeOp (op : BitVec 4) : Decoded :=
  match op.toNat with
  | 0 => .instr .gray
  | 1 => .instr .pgray
  | 2 => .instr .rgb2ycbcr
  | 3 => .instr .ycbcr2rgb
  | 4 => .instr .rgb2yuv
  | 5 => .instr .yuv2rgb
  | 6 => .instr .rgb2xyz
  | 7 => .instr .xyz2rgb
  | 8 => .instr .rgb2hls
  | 9 => .instr .hls2rgb
  | 10 => .instr .rgb2hsv
  | 11 => .instr .hsv2rgb
  | 12 => .instr .rgb2ycocg
  | 13 => .instr .ycocg2rgb
  | 14 => .instr .gamma
  | _ => .rejected .reservedOp

/-- The command word (R71): bit 0 is START whatever bit 1 is; otherwise bit 1 is CLR; otherwise there is no command;
bits 31..2 never matter. -/
def decodeCtrl (c : Word) : Decoded :=
  if c.getLsbD 0 then .instr .start
  else if c.getLsbD 1 then .instr .clr
  else .rejected .noCommand

/-- The decoder over both formats (R70, R76: nothing else changes how a word is read). -/
def decode : Code → Decoded
  | .op4 op => decodeOp op
  | .ctrl c => decodeCtrl c

/-- The encoder: the code of R73 for a transform, the canonical data of R193 and R194 for a command. -/
def encode : Instr → Code
  | .gray => .op4 0#4
  | .pgray => .op4 1#4
  | .rgb2ycbcr => .op4 2#4
  | .ycbcr2rgb => .op4 3#4
  | .rgb2yuv => .op4 4#4
  | .yuv2rgb => .op4 5#4
  | .rgb2xyz => .op4 6#4
  | .xyz2rgb => .op4 7#4
  | .rgb2hls => .op4 8#4
  | .hls2rgb => .op4 9#4
  | .rgb2hsv => .op4 10#4
  | .hsv2rgb => .op4 11#4
  | .rgb2ycocg => .op4 12#4
  | .ycocg2rgb => .op4 13#4
  | .gamma => .op4 14#4
  | .start => .ctrl 1#32
  | .clr => .ctrl 2#32

/-- The register index (R24): all eight values of the 3-bit index name a register. -/
def decodeReg (idx : BitVec 3) : CtrlReg :=
  match idx.toNat with
  | 0 => .ctrl
  | 1 => .op
  | 2 => .width
  | 3 => .height
  | 4 => .status
  | 5 => .errcode
  | 6 => .scanx
  | _ => .scany

/-- The encoded word that a row of the opcode table gives as a number of `nbits` bits. The two formats overlap as
numbers (1 is the code of PGRAY and the command word START), so the width tells them apart: the table writes an OP4
row in at most 8 bits and a CTRL row in 32. DESIGN CHOICE, log entry 3. -/
def codeOfTableWord (nbits w : Nat) : Code :=
  if nbits ≤ 8 then .op4 (BitVec.ofNat 4 w) else .ctrl (BitVec.ofNat 32 w)

/-- The instruction the decoder reads from a table word (the host's fixed name). -/
def decodeTableWord (nbits w : Nat) : Option Instr :=
  match decode (codeOfTableWord nbits w) with
  | .instr i => some i
  | .rejected _ => none

end Sys2Proof
end

