-- ==== Sys2Proof/Config.lean ====
section
/-! DEFINITION. What an implementation fixes (the OPEN parameters of spec/00_scope.md R9) and the free values, which
nothing fixes. -/

namespace Sys2Proof

/-- One row of a 3x3 matrix of rationals: the entries are `a1/den`, `a2/den`, `a3/den`. Every row of rationals has
this form with a common denominator (R141). DEDUCED, log entry 4. -/
structure MatrixRow where
  a1  : Int
  a2  : Int
  a3  : Int
  den : Nat
  deriving DecidableEq, Repr

/-- A 3x3 matrix of rationals, by rows (R136, R137). -/
structure Matrix3 where
  row1 : MatrixRow
  row2 : MatrixRow
  row3 : MatrixRow
  deriving DecidableEq, Repr

/-- The OPEN parameters of the hardware (R9, R34, U8, U9): the model takes them as an argument. They are held in
State so that a theorem about every state is a theorem about every choice of them. DESIGN CHOICE, log entry 4. -/
structure Config where
  /-- `MEM_PIXELS`, the capacity of each raster memory in pixel words (R9, R45). -/
  memPixels : Nat
  /-- `XYZ_FWD` (R136). -/
  xyzFwd    : Matrix3
  /-- `XYZ_INV` (R137). -/
  xyzInv    : Matrix3
  deriving DecidableEq, Repr

/-- What the spec asks of a choice of the parameters: a positive capacity (U8) and rational entries (R141). -/
abbrev Config.wf (c : Config) : Prop :=
  0 < c.memPixels ∧
  0 < c.xyzFwd.row1.den ∧ 0 < c.xyzFwd.row2.den ∧ 0 < c.xyzFwd.row3.den ∧
  0 < c.xyzInv.row1.den ∧ 0 < c.xyzInv.row2.den ∧ 0 < c.xyzInv.row3.den

/-- The default `XYZ_FWD` of R136. -/
def Config.defaultFwd : Matrix3 :=
  { row1 := ⟨4124, 3576, 1805, 10000⟩
    row2 := ⟨2126, 7152, 722, 10000⟩
    row3 := ⟨193, 1192, 9505, 10000⟩ }

/-- The default `XYZ_INV` of R137. -/
def Config.defaultInv : Matrix3 :=
  { row1 := ⟨32406, -15372, -4986, 10000⟩
    row2 := ⟨-9689, 18758, 415, 10000⟩
    row3 := ⟨557, -2040, 10570, 10000⟩ }

/-- The defaults of R9: 2^24 pixel words and the matrices of R136 and R137. -/
def Config.default : Config :=
  { memPixels := 16777216, xyzFwd := Config.defaultFwd, xyzInv := Config.defaultInv }

/-- A free byte: the value of a byte of memory nobody has written, or of a latch after reset, that the `n`-th draw
gives (R60, U1, U2). It has no body: nothing can be proved of its value. Log entries 5 and 6. -/
opaque Config.freeByte : Nat → Byte

/-- A free coin: which of the two outcomes of R61 a host access that races with a run has (U3). It has no body.
Log entries 9 and 10. -/
opaque Config.freeCoin : Nat → Bool

end Sys2Proof
end

