-- ==== Sys2Proof/Machine/State.lean ====
section
/-! DEFINITION. The state of the machine as plain data (spec/10_state.md R20), the reasons a step can stop, and the
state right after reset (R37). -/

namespace Sys2Proof.Machine

/-- The three colour channels of a pixel, in storage order: what a transform reads and writes (R14, R72). -/
structure Colour where
  c1 : Byte
  c2 : Byte
  c3 : Byte
  deriving DecidableEq, Repr

/-- A pixel latch: four unsigned 8-bit channels (R21). -/
structure Pixel where
  c1 : Byte
  c2 : Byte
  c3 : Byte
  a  : Byte
  deriving DecidableEq, Repr

/-- A raster memory: the bytes written since reset, by byte address `4 * idx + k` (R45, R47), in strictly rising
order. An unlisted address holds no value: a read of it is a free byte (R60). Log entries 5 and 8. -/
abbrev Mem := List Host.Cell

/-- What the MODEL remembers of host accesses that race with the run in progress (R61, U3). Log entries 9 and 10. -/
structure RaceBook where
  /-- IMEM words the engine already holds ahead of their pixel steps: pixel index and word. -/
  stale  : List (Nat × Word)
  /-- Pixel indices of OMEM, ahead of the scan position, where the host's racing write remains and the engine's store is
  lost. -/
  kept   : List Nat
  /-- OMEM as it would stand had this run written nothing. -/
  before : Mem
  /-- The words this run has stored, whatever the host has written over them. -/
  stored : Mem
  deriving DecidableEq, Repr

/-- The state. The first ten fields are the spec's (R20); CTRL is not storage (R25). The last five are the model's. -/
structure State where
  /-- OP (R26). -/
  op      : BitVec 4
  /-- WIDTH (R27). -/
  width   : Half
  /-- HEIGHT (R28). -/
  height  : Half
  /-- STATUS: bit 0 BUSY, bit 1 DONE, bit 2 ERR (R23, R29). -/
  status  : BitVec 3
  /-- ERRCODE (R30). -/
  errcode : BitVec 2
  /-- SCANX, the x half of the program counter (R22, R31). -/
  scanx   : Half
  /-- SCANY, the y half of the program counter (R22, R32). -/
  scany   : Half
  /-- PIN, the pixel being transformed (R21). -/
  pin     : Pixel
  /-- POUT, the result (R21). -/
  pout    : Pixel
  /-- IMEM, the input raster memory (R35). -/
  imem    : Mem
  /-- OMEM, the output raster memory (R35). -/
  omem    : Mem
  /-- The OPEN parameters (R9): constants of the hardware, log entry 4. -/
  config  : Config
  /-- Host accesses that race with the run (R61), log entries 9 and 10. -/
  race    : RaceBook
  /-- How many free values have been drawn, log entry 5. -/
  draws   : Nat
  /-- The turns still to come (R190), log entry 1. -/
  turns   : List Turn
  /-- The words host reads have returned, newest first, log entry 17. -/
  replies : List Word
  deriving DecidableEq, Repr

/-- Why the machine stops with a fault. No step of a state that meets `State.Inv` (Safety.lean) raises one. -/
inductive Fault where
  /-- Raised by a pixel step whose index is at or above `MEM_PIXELS`, an address that does not exist. Safe: the engine
  cannot produce one in a reachable state (R52). Log entry 13. -/
  | engineIndexOutOfRange
  /-- Raised by an engine turn whose pixel step is enabled while OP holds the reserved code 15, which has no meaning
  (R75). Safe: during a run OP is 0..14 (R98). Log entry 13. -/
  | reservedCodeInRun
  deriving DecidableEq, Repr

/-- Why the machine refuses a turn. -/
inductive Refusal where
  /-- Raised by exec for an instruction that has no meaning yet; no arm does. Safe. -/
  | notModelled (mnemonic : String)
  /-- Raised by a host access to IMEM or OMEM at or above `MEM_PIXELS`, which has no meaning and which a model
  refuses (R52, R196, R197, U4). Safe. Log entry 14. -/
  | hostIndexOutOfRange
  deriving DecidableEq, Repr

/-- The record of races of an idle engine: nothing. -/
def RaceBook.none : RaceBook := { stale := [], kept := [], before := [], stored := [] }

/-- The four bytes of the `n`-th and following draws as a pixel (R37, U2). -/
def freePixel (n : Nat) : Pixel :=
  ⟨Config.freeByte n, Config.freeByte (n + 1), Config.freeByte (n + 2), Config.freeByte (n + 3)⟩

/-- The machine right after reset (R37, R235): every control register 0, the latches free values, no word of either
memory written; the parameters at the spec's defaults (R9). -/
def State.reset : State :=
  { op := 0#4, width := 0#16, height := 0#16, status := 0#3, errcode := 0#2, scanx := 0#16, scany := 0#16
    pin := freePixel 0, pout := freePixel 4, imem := [], omem := []
    config := Config.default, race := RaceBook.none, draws := 8, turns := [], replies := [] }

end Sys2Proof.Machine
end

