-- ==== Sys2Proof/Machine/Flags.lean ====
section
/-! DEFINITION. The three status flags BUSY, DONE and ERR, the fields of register STATUS (spec/10_state.md R23, R29).
No transform sets or reads a flag. -/

namespace Sys2Proof.Machine

/-- Bit `k` of STATUS replaced by `b` (R23). -/
def writeFlag (k : Nat) (b : Bool) (status : BitVec 3) : BitVec 3 :=
  if b then status ||| (1#3 <<< k) else status &&& ~~~(1#3 <<< k)

/-- `x[STATUS].BUSY`, bit 0 (R23). -/
def State.busy (s : State) : Bool := s.status.getLsbD 0

/-- `x[STATUS].DONE`, bit 1 (R23). -/
def State.done (s : State) : Bool := s.status.getLsbD 1

/-- `x[STATUS].ERR`, bit 2 (R23). -/
def State.err (s : State) : Bool := s.status.getLsbD 2

/-- `x[STATUS].BUSY <- b`. -/
def State.setBusy (b : Bool) (s : State) : State := { s with status := writeFlag 0 b s.status }

/-- `x[STATUS].DONE <- b`. -/
def State.setDone (b : Bool) (s : State) : State := { s with status := writeFlag 1 b s.status }

/-- `x[STATUS].ERR <- b`. -/
def State.setErr (b : Bool) (s : State) : State := { s with status := writeFlag 2 b s.status }

end Sys2Proof.Machine
end

