-- ==== Sys2Proof/Machine/Ops.lean ====
section
/-! DEFINITION. The named operations over the raster memories and the control registers, the error entry and what
clears it, and the reset event. -/

namespace Sys2Proof.Machine

/-! ### Bytes and words (R46, R47) -/

/-- Byte `k` (0..3) of a word: `w[8k+7 : 8k]` (R47). -/
def wordByte (w : Word) (k : Nat) : Byte := w.extractLsb' (8 * k) 8

/-- The word with the given bytes, byte 0 the least significant (R47). -/
def wordOfBytes (b0 b1 b2 b3 : Byte) : Word := b3 ++ b2 ++ b1 ++ b0

/-- The byte address of byte `k` of the word at pixel index `idx` (R47). -/
def byteAddr (idx k : Nat) : Nat := 4 * idx + k

/-! ### One raster memory (R45, R50) -/

/-- The byte listed at address `a`; none where nothing has been written since reset (R37). -/
def memByte : Mem → Nat → Option Byte
  | [], _ => none
  | (b, v) :: rest, a => if a = b then some v else memByte rest a

/-- A byte written, keeping the addresses strictly rising. -/
def memSetByte : Mem → Nat → Byte → Mem
  | [], a, v => [(a, v)]
  | (b, w) :: rest, a, v =>
    if a < b then (a, v) :: (b, w) :: rest
    else if a = b then (a, v) :: rest
    else (b, w) :: memSetByte rest a v

/-- `MemWrite(space, idx, 4, v)` (R45). -/
def memWriteWord (m : Mem) (idx : Nat) (w : Word) : Mem :=
  memSetByte (memSetByte (memSetByte (memSetByte m
    (byteAddr idx 0) (wordByte w 0)) (byteAddr idx 1) (wordByte w 1)) (byteAddr idx 2) (wordByte w 2))
    (byteAddr idx 3) (wordByte w 3)

/-- Whether the word at `idx` has been written since reset. -/
def memWritten (m : Mem) (idx : Nat) : Bool :=
  (memByte m (byteAddr idx 0)).isSome && (memByte m (byteAddr idx 1)).isSome &&
  (memByte m (byteAddr idx 2)).isSome && (memByte m (byteAddr idx 3)).isSome

/-- `MemRead(space, idx, 4)` (R45): a byte nobody has written is a free byte of the draw `n` (R60, U1). -/
def memWord (m : Mem) (idx n : Nat) : Word :=
  wordOfBytes ((memByte m (byteAddr idx 0)).getD (Config.freeByte n))
    ((memByte m (byteAddr idx 1)).getD (Config.freeByte (n + 1)))
    ((memByte m (byteAddr idx 2)).getD (Config.freeByte (n + 2)))
    ((memByte m (byteAddr idx 3)).getD (Config.freeByte (n + 3)))

/-- The draw counter after a read of the word at `idx`: a read of a written word draws nothing, a read of an unwritten
one is drawn afresh each time (U1). -/
def memDraws (m : Mem) (idx n : Nat) : Nat := if memWritten m idx then n else n + 4

/-- The canonical form of a memory: addresses strictly rising. An unlisted address reads as no fixed value, so no
entry can equal what an unlisted address reads as. -/
abbrev Mem.wf (m : Mem) : Prop := m.Pairwise (fun x y => x.1 < y.1)

/-- Every listed byte lies in the address space of `memPixels` words (R51). -/
abbrev Mem.inRange (m : Mem) (memPixels : Nat) : Prop := ∀ c ∈ m, c.1 < 4 * memPixels

/-! ### Error entry and what clears it (R211, R212) -/

/-- The two error causes (R205). -/
inductive ErrCause where
  | illegalOp
  | badDim
  deriving DecidableEq, Repr

/-- ERRCODE of a cause (R205). -/
def ErrCause.code : ErrCause → BitVec 2
  | .illegalOp => 1#2
  | .badDim => 2#2

/-- The error entry `raise Err(code)` (R211): ERR and ERRCODE are set and nothing else changes; no register saves
anything, no mode changes and control goes nowhere. -/
def State.raiseErr (cause : ErrCause) (s : State) : State :=
  { s.setErr true with errcode := cause.code }

/-- The report discarded (R193, R194): DONE, ERR and ERRCODE cleared. There is no return from an error (R212); this is
all that clears one, apart from reset. -/
def State.clearReport (s : State) : State :=
  { (s.setDone false).setErr false with errcode := 0#2 }

/-- The record of races at the start of a run over the given OMEM: nothing held, kept or stored. -/
def RaceBook.ofRun (omem : Mem) : RaceBook := { stale := [], kept := [], before := omem, stored := [] }

/-- A successful START (R193): the scan position at the origin and BUSY set. The record of races begins anew. -/
def State.beginRun (s : State) : State :=
  { s.setBusy true with
    scanx := 0#16, scany := 0#16, race := RaceBook.ofRun s.omem }

/-! ### Control registers (R191, R192) -/

/-- `RD idx` (R192): the bits that exist, zero-extended; CTRL reads 0. -/
def readReg (r : CtrlReg) (s : State) : Word :=
  match r with
  | .ctrl => 0#32
  | .op => s.op.setWidth 32
  | .width => s.width.setWidth 32
  | .height => s.height.setWidth 32
  | .status => s.status.setWidth 32
  | .errcode => s.errcode.setWidth 32
  | .scanx => s.scanx.setWidth 32
  | .scany => s.scany.setWidth 32

/-- `WR idx, v` on a register that is storage (R191, R33): ignored in full while BUSY = 1; bits above the register's
width dropped; a read-only register keeps its value. CTRL is not storage: a write to it is a command. -/
def writeReg (r : CtrlReg) (v : Word) (s : State) : State :=
  if s.busy then s
  else match r with
    | .ctrl => s
    | .op => { s with op := v.setWidth 4 }
    | .width => { s with width := v.setWidth 16 }
    | .height => { s with height := v.setWidth 16 }
    | .status => s
    | .errcode => s
    | .scanx => s
    | .scany => s

/-! ### Reset (R235) -/

/-- The reset event, in any state: every control register at its reset value, the run abandoned, no word of either
memory and no latch carried across or cleared (U2). The parameters are constants; the environment's turns and replies
are not the block's. Log entries 6 and 7. -/
def State.resetEvent (s : State) : State :=
  { State.reset with
    pin := freePixel s.draws, pout := freePixel (s.draws + 4), draws := s.draws + 8
    config := s.config, turns := s.turns, replies := s.replies }

end Sys2Proof.Machine
end

