-- ==== Sys2Proof/Machine/Operands.lean ====
section
/-! DEFINITION. The implicit operands of every transform (spec/30_encoding.md R72): the pixel word, its channels, the
effective pixel index, the operand fetch from IMEM and the result store to OMEM (spec/40_driver_and_quantizer.md R96). -/

namespace Sys2Proof.Machine

/-- `unpack(w)` (R46). -/
def unpack (w : Word) : Pixel := ⟨wordByte w 0, wordByte w 1, wordByte w 2, wordByte w 3⟩

/-- `pack(C1, C2, C3, A)` (R46). -/
def pack (p : Pixel) : Word := wordOfBytes p.c1 p.c2 p.c3 p.a

/-- The channels a transform reads (R72). -/
def Pixel.colour (p : Pixel) : Colour := ⟨p.c1, p.c2, p.c3⟩

/-- POUT: the transformed colours beside the copied alpha (R89). -/
def outPixel (T : Colour → Colour) (p : Pixel) : Pixel :=
  ⟨(T p.colour).c1, (T p.colour).c2, (T p.colour).c3, p.a⟩

/-- `F(w)` of R95: the word a run stores for the input word `w`. -/
def pixelFunction (T : Colour → Colour) (w : Word) : Word := pack (outPixel T (unpack w))

/-- The effective pixel index `SCANY * WIDTH + SCANX` (R48, R96). -/
def State.scanIndex (s : State) : Nat := s.scany.toNat * s.width.toNat + s.scanx.toNat

/-- `WIDTH * HEIGHT`, exact (R193). -/
def State.rasterSize (s : State) : Nat := s.width.toNat * s.height.toNat

/-- The word recorded for index `i`, if any. -/
def staleWord : List (Nat × Word) → Nat → Option Word
  | [], _ => none
  | (j, w) :: rest, i => if i = j then some w else staleWord rest i

/-- The word the engine's IMEM read of index `i` returns: the word in IMEM, or the old word where a racing host write
left the engine holding it (R61). -/
def State.fetchWord (i : Nat) (s : State) : Word :=
  (staleWord s.race.stale i).getD (memWord s.imem i s.draws)

/-- The draw counter after that read. -/
def State.fetchDraws (i : Nat) (s : State) : Nat :=
  if (staleWord s.race.stale i).isSome then s.draws else memDraws s.imem i s.draws

/-- OMEM after the engine's write of `w` at index `i`: the word replaced, unless a racing host write remains (R61). -/
def State.storeOmem (i : Nat) (w : Word) (s : State) : Mem :=
  if i ∈ s.race.kept then s.omem else memWriteWord s.omem i w

/-- The record of races after that write: the word is remembered as the run's (R61). Log entry 10. -/
def State.storeRace (i : Nat) (w : Word) (s : State) : RaceBook :=
  { s.race with stored := memWriteWord s.race.stored i w }

end Sys2Proof.Machine
end

