-- ==== Sys2Proof/Machine/Commands.lean ====
section
/-! DEFINITION. The two commands START and CLR (spec/47_host_commands.md R193, R194). -/

namespace Sys2Proof.Machine

/-- START (R193): ignored while BUSY = 1; otherwise the old report is discarded, then code 15 raises ILLEGAL_OP, then a
raster above `MEM_PIXELS` raises BAD_DIM (R206, R207, in this order by R210), and otherwise the run begins. -/
def execStart (s : State) : Host.Outcome State Fault Refusal :=
  if s.busy then .next s
  else if s.op = 15#4 then .next (s.clearReport.raiseErr .illegalOp)
  else if s.config.memPixels < s.rasterSize then .next (s.clearReport.raiseErr .badDim)
  else .next s.clearReport.beginRun

/-- CLR (R194): ignored while BUSY = 1; otherwise DONE, ERR and ERRCODE cleared. -/
def execClr (s : State) : Host.Outcome State Fault Refusal :=
  if s.busy then .next s else .next s.clearReport

end Sys2Proof.Machine
end

