-- ==== Sys2Proof/Machine/Quantizer.lean ====
section
/-! DEFINITION. CQ, the clamping and quantisation unit (spec/40_driver_and_quantizer.md R90, R91) and the arithmetic
primitives of spec/00_scope.md R12. -/

namespace Sys2Proof.Machine

/-- `clamp(lo, hi, v)` (R12). -/
def clamp (lo hi v : Int) : Int := if v < lo then lo else if hi < v then hi else v

/-- The byte stored for an integer: `clamp(0, 255, v)` (R90). -/
def clampByte (v : Int) : Byte := BitVec.ofNat 8 (clamp 0 255 v).toNat

/-- `Q(a / b)` for integers with `b > 0`: `clamp(0, 255, tdiv(a, b))` (R91 (iii)). `Int.tdiv` rounds toward zero, as
R12's `tdiv` does. -/
def quantDiv (a b : Int) : Byte := clampByte (Int.tdiv a b)

/-- `trunc(q)`: the fractional part discarded toward zero (R12). -/
def trunc (q : ℚ) : Int := if 0 ≤ q then ⌊q⌋ else -⌊-q⌋

/-- `Q(q) = clamp(0, 255, trunc(q))` (R90), over the exact rationals the spec's formulas are written in (R11). The
transforms compute it by `quantDiv`, to which it is equal on quotients. -/
def quantise (q : ℚ) : Byte := clampByte (trunc q)

/-- A channel as the integer 0..255 (R15). -/
def chan (b : Byte) : Int := (b.toNat : Int)

/-- `max3` (R12). -/
def max3 (a b c : Int) : Int := max a (max b c)

/-- `min3` (R12). -/
def min3 (a b c : Int) : Int := min a (min b c)

end Sys2Proof.Machine
end

