-- ==== Sys2Proof/Machine/RasterScan.lean ====
section
/-! DEFINITION. RSC, the raster scan controller: which engine step is enabled, the pixel step and the finish step
(spec/40_driver_and_quantizer.md R85 to R88). -/

namespace Sys2Proof.Machine

/-- The pixel step is enabled (R85). -/
def State.pixelEnabled (s : State) : Bool :=
  s.busy && decide (0 < s.width.toNat) && decide (s.scany.toNat < s.height.toNat)

/-- The finish step is enabled (R85). -/
def State.finishEnabled (s : State) : Bool :=
  s.busy && (s.width == 0#16 || s.scany == s.height)

/-- `next(px, py)` (R88): x runs fastest; the end of a row goes to the next row. -/
def nextPos (w px py : Half) : Half × Half :=
  if px.toNat + 1 < w.toNat then (px + 1#16, py) else (0#16, py + 1#16)

/-- The state after an enabled pixel step with transform `T` (R86): PIN loaded from IMEM, POUT computed, POUT stored
to OMEM at the same index, the scan position advanced. No flag changes and no error is raised. -/
def State.afterPixel (T : Colour → Colour) (s : State) : State :=
  let i := s.scanIndex
  let pin := unpack (s.fetchWord i)
  let pout := outPixel T pin
  { s with
    pin := pin, pout := pout
    omem := s.storeOmem i (pack pout)
    race := s.storeRace i (pack pout)
    draws := s.fetchDraws i
    scanx := (nextPos s.width s.scanx s.scany).1
    scany := (nextPos s.width s.scanx s.scany).2 }

/-- The pixel step (R86) with transform `T`: the shared meaning of the fifteen operation codes. Where no pixel step is
enabled the engine does not take one (R85), so nothing happens; an index outside the memories, which no reachable
state has (R52), stops with a fault. Log entries 11 and 13. -/
def pixelStep (T : Colour → Colour) (s : State) : Host.Outcome State Fault Refusal :=
  if s.pixelEnabled then
    if s.scanIndex < s.config.memPixels then .next (s.afterPixel T)
    else .fault .engineIndexOutOfRange
  else .next s

/-- The finish step (R87): BUSY cleared and DONE set. The record of races ends with the run. -/
def State.finishRun (s : State) : State :=
  { (s.setBusy false).setDone true with race := RaceBook.none }

end Sys2Proof.Machine
end

