-- ==== Sys2Proof/Machine/Gamma.lean ====
section
/-! DEFINITION. OETF, the gamma LUT applier: GAMMA (spec/46_gamma.md R180 to R184). -/

namespace Sys2Proof.Machine

/-- Entries 0 to 63 of the table of R182. -/
def gammaLutPart0 : List Nat :=
  [0, 4, 9, 13, 18, 22, 26, 30, 33, 36, 40, 42, 45, 48, 50, 53,
   55, 57, 59, 61, 63, 65, 67, 69, 71, 73, 75, 76, 78, 80, 81, 83,
   84, 86, 87, 89, 90, 92, 93, 95, 96, 97, 99, 100, 101, 103, 104, 105,
   106, 108, 109, 110, 111, 112, 114, 115, 116, 117, 118, 119, 120, 121, 123, 124]

/-- Entries 64 to 127 of the table of R182. -/
def gammaLutPart1 : List Nat :=
  [125, 126, 127, 128, 129, 130, 131, 132, 133, 134, 135, 136, 137, 138, 139, 140,
   141, 142, 142, 143, 144, 145, 146, 147, 148, 149, 150, 151, 151, 152, 153, 154,
   155, 156, 156, 157, 158, 159, 160, 161, 161, 162, 163, 164, 165, 165, 166, 167,
   168, 169, 169, 170, 171, 172, 172, 173, 174, 175, 175, 176, 177, 178, 178, 179]

/-- Entries 128 to 191 of the table of R182. -/
def gammaLutPart2 : List Nat :=
  [180, 180, 181, 182, 183, 183, 184, 185, 185, 186, 187, 188, 188, 189, 190, 190,
   191, 192, 192, 193, 194, 194, 195, 196, 196, 197, 198, 198, 199, 200, 200, 201,
   201, 202, 203, 203, 204, 205, 205, 206, 207, 207, 208, 208, 209, 210, 210, 211,
   211, 212, 213, 213, 214, 214, 215, 216, 216, 217, 217, 218, 219, 219, 220, 220]

/-- Entries 192 to 255 of the table of R182. -/
def gammaLutPart3 : List Nat :=
  [221, 221, 222, 223, 223, 224, 224, 225, 225, 226, 227, 227, 228, 228, 229, 229,
   230, 231, 231, 232, 232, 233, 233, 234, 234, 235, 235, 236, 236, 237, 238, 238,
   239, 239, 240, 240, 241, 241, 242, 242, 243, 243, 244, 244, 245, 245, 246, 246,
   247, 247, 248, 248, 249, 250, 250, 251, 251, 252, 252, 253, 253, 254, 254, 255]

/-- `GAMMA_LUT[0..255]` (R182), the normative table. -/
def gammaLut : List Nat := gammaLutPart0 ++ gammaLutPart1 ++ gammaLutPart2 ++ gammaLutPart3

/-- `GAMMA_LUT[C]` (R182). -/
def gammaChannel (b : Byte) : Byte := BitVec.ofNat 8 (gammaLut.getD b.toNat 0)

/-- GAMMA's colours (R180, R184): each channel looked up on its own. -/
def gammaColour (c : Colour) : Colour := ⟨gammaChannel c.c1, gammaChannel c.c2, gammaChannel c.c3⟩

/-- GAMMA, operation code 14 (R180). -/
def execGamma (s : State) : Host.Outcome State Fault Refusal := pixelStep gammaColour s

end Sys2Proof.Machine
end

