-- ==== Sys2Proof/Machine/Grayscale.lean ====
section
/-! DEFINITION. GRY, the RGB-to-grayscale converter: GRAY and PGRAY (spec/41_grayscale.md R110 to R115). -/

namespace Sys2Proof.Machine

/-- GRAY's colours (R110): the luma 0.299R + 0.587G + 0.114B in all three channels. -/
def grayColour (c : Colour) : Colour :=
  let y := quantDiv (299 * chan c.c1 + 587 * chan c.c2 + 114 * chan c.c3) 1000
  ⟨y, y, y⟩

/-- Rows k = 1 to 100 of the table of R114. -/
def pgrayThrRows0 : List (List Nat) :=
  [[774, 1548, 2322, 3096, 3870, 4644, 5418, 6192, 6966, 7740],
   [8534, 9376, 10264, 11199, 12182, 13213, 14294, 15425, 16606, 17839],
   [19123, 20460, 21849, 23292, 24790, 26342, 27949, 29612, 31331, 33107],
   [34941, 36832, 38782, 40791, 42859, 44987, 47176, 49426, 51736, 54109],
   [56544, 59042, 61602, 64227, 66916, 69669, 72487, 75370, 78320, 81335],
   [84418, 87567, 90784, 94069, 97422, 100843, 104334, 107895, 111525, 115225],
   [118996, 122839, 126752, 130738, 134795, 138925, 143128, 147404, 151754, 156178],
   [160676, 165249, 169897, 174620, 179419, 184294, 189245, 194273, 199378, 204561],
   [209821, 215160, 220577, 226072, 231647, 237301, 243035, 248848, 254742, 260717],
   [266773, 272909, 279128, 285428, 291811, 298276, 304823, 311454, 318169, 324967]]

/-- Rows k = 101 to 200 of the table of R114. -/
def pgrayThrRows1 : List (List Nat) :=
  [[331849, 338815, 345865, 353001, 360222, 367528, 374920, 382398, 389962, 397613],
   [405351, 413175, 421088, 429087, 437175, 445351, 453616, 461969, 470412, 478943],
   [487565, 496276, 505077, 513969, 522951, 532025, 541189, 550445, 559792, 569232],
   [578763, 588388, 598104, 607914, 617817, 627814, 637904, 648088, 658367, 668740],
   [679207, 689770, 700428, 711181, 722030, 732975, 744016, 755153, 766387, 777718],
   [789146, 800672, 812295, 824016, 835835, 847752, 859768, 871882, 884096, 896409],
   [908821, 921333, 933945, 946657, 959469, 972382, 985396, 998510, 1011726, 1025044],
   [1038463, 1051984, 1065607, 1079333, 1093161, 1107092, 1121126, 1135264, 1149504, 1163849],
   [1178297, 1192849, 1207506, 1222267, 1237133, 1252104, 1267180, 1282361, 1297648, 1313041],
   [1328539, 1344144, 1359855, 1375673, 1391598, 1407630, 1423768, 1440015, 1456369, 1472831]]

/-- Rows k = 201 to 255 of the table of R114. -/
def pgrayThrRows2 : List (List Nat) :=
  [[1489400, 1506079, 1522865, 1539760, 1556764, 1573877, 1591099, 1608431, 1625873, 1643424],
   [1661085, 1678856, 1696738, 1714731, 1732834, 1751048, 1769373, 1787810, 1806359, 1825019],
   [1843791, 1862675, 1881672, 1900781, 1920003, 1939338, 1958786, 1978347, 1998022, 2017810],
   [2037712, 2057729, 2077859, 2098104, 2118464, 2138938, 2159527, 2180232, 2201051, 2221987],
   [2243038, 2264204, 2285487, 2306886, 2328402, 2350034, 2371783, 2393649, 2415632, 2437733],
   [2459950, 2482286, 2504739, 2527311, 2550000]]

/-- The table of R114 by its lines of ten entries. -/
def pgrayThrRows : List (List Nat) := pgrayThrRows0 ++ pgrayThrRows1 ++ pgrayThrRows2

/-- `PGRAY_THR[1..255]` (R114), the normative table; entry `k` of the spec is at position `k - 1`. -/
def pgrayThr : List Nat := pgrayThrRows.flatten

/-- The luminance numerator `N`, 0..2550000 (R111); the luminance is `N / 2550000`. -/
def pgrayNumerator (c : Colour) : Nat := 2126 * c.c1.toNat + 7152 * c.c2.toNat + 722 * c.c3.toNat

/-- How many thresholds of a row are at or below `n`. -/
def countAtOrBelow : List Nat → Nat → Nat
  | [], _ => 0
  | t :: rest, n => if t ≤ n then countAtOrBelow rest n + 1 else countAtOrBelow rest n

/-- How many thresholds of the rows are at or below `n` (R113). -/
def countRows : List (List Nat) → Nat → Nat
  | [], _ => 0
  | row :: rest, n => countAtOrBelow row n + countRows rest n

/-- `P` for the luminance numerator `n` (R113): the number of thresholds at or below `n`. -/
def pgrayLevel (n : Nat) : Nat := countRows pgrayThrRows n

/-- PGRAY's colours (R111, R113): the level of `N` in all three channels. -/
def pgrayColour (c : Colour) : Colour :=
  let p := BitVec.ofNat 8 (pgrayLevel (pgrayNumerator c))
  ⟨p, p, p⟩

/-- GRAY, operation code 0 (R110). -/
def execGray (s : State) : Host.Outcome State Fault Refusal := pixelStep grayColour s

/-- PGRAY, operation code 1 (R111). -/
def execPgray (s : State) : Host.Outcome State Fault Refusal := pixelStep pgrayColour s

end Sys2Proof.Machine
end

