-- ==== Sys2Proof/Machine/HueSector.lean ====
section
/-! DEFINITION. HUE, the hue-sector encoder and decoder: RGB2HLS, HLS2RGB, RGB2HSV, HSV2RGB
(spec/44_hls_hsv.md R145 to R153), in the integer forms of those rules. -/

namespace Sys2Proof.Machine

/-! ### Encoding -/

/-- `6 * d` times the hue in full turns, before the wrap (R147): the sector formula of the channel that is the
maximum, tested in the order R, G, B. -/
def hueNumerator (r g b : Int) : Int :=
  let mx := max3 r g b
  let d := mx - min3 r g b
  if r = mx then g - b
  else if g = mx then 2 * d + (b - r)
  else 4 * d + (r - g)

/-- The stored hue `H8` (R147), 0 for an achromatic pixel without a division (R153). -/
def hueByte (r g b : Int) : Byte :=
  let d := max3 r g b - min3 r g b
  let a := hueNumerator r g b
  if d = 0 then 0#8
  else quantDiv (255 * (if a < 0 then a + 6 * d else a)) (6 * d)

/-- The stored saturation of HLS (R148). -/
def hlsSaturation (mx mn : Int) : Byte :=
  let d := mx - mn
  let sm := mx + mn
  if d = 0 then 0#8
  else if sm ≤ 255 then quantDiv (255 * d) sm
  else quantDiv (255 * d) (510 - sm)

/-- RGB2HLS's colours (R148): H in C1, L in C2, S in C3 (R145). -/
def rgb2hlsColour (c : Colour) : Colour :=
  let r := chan c.c1
  let g := chan c.c2
  let b := chan c.c3
  let mx := max3 r g b
  let mn := min3 r g b
  ⟨hueByte r g b, quantDiv (mx + mn) 2, hlsSaturation mx mn⟩

/-- RGB2HSV's colours (R151): H in C1, S in C2, V in C3 (R145). -/
def rgb2hsvColour (c : Colour) : Colour :=
  let r := chan c.c1
  let g := chan c.c2
  let b := chan c.c3
  let mx := max3 r g b
  let mn := min3 r g b
  ⟨hueByte r g b, if mx = 0 then 0#8 else quantDiv (255 * (mx - mn)) mx, clampByte mx⟩

/-! ### Decoding HLS -/

/-- The wrap of `tn = 765 * t` into [0, 765), that is of `t` into [0, 1) (R149, R150). -/
def wrapTurn (tn : Int) : Int :=
  let t := if tn < 0 then tn + 765 else tn
  if 765 ≤ t then t - 765 else t

/-- One channel of HLS2RGB (R150): the hue-to-channel helper of R149 for `p = pn / 65025`, `q = qn / 65025` and
`t = tn / 765`, scaled by 256, truncated and limited to 255. -/
def hlsChannel (pn qn tn : Int) : Byte :=
  let t := wrapTurn tn
  if t ≤ 127 then quantDiv (256 * (765 * pn + 6 * t * (qn - pn))) 49744125
  else if t ≤ 382 then quantDiv (256 * qn) 65025
  else if t ≤ 509 then quantDiv (256 * (765 * pn + 6 * (510 - t) * (qn - pn))) 49744125
  else quantDiv (256 * pn) 65025

/-- `qn = 65025 * q` (R150). -/
def hlsQ (l s : Int) : Int :=
  if l ≤ 127 then l * (255 + s) else 255 * l + 255 * s - l * s

/-- HLS2RGB's colours (R150): achromatic when S = 0; otherwise red, green and blue at a third of a turn apart. -/
def hls2rgbColour (c : Colour) : Colour :=
  let h := chan c.c1
  let l := chan c.c2
  let s := chan c.c3
  if s = 0 then
    let v := quantDiv (256 * l) 255
    ⟨v, v, v⟩
  else
    let qn := hlsQ l s
    let pn := 510 * l - qn
    ⟨hlsChannel pn qn (3 * h + 255), hlsChannel pn qn (3 * h), hlsChannel pn qn (3 * h - 255)⟩

/-! ### Decoding HSV -/

/-- The six 60-degree hue sectors (R80, R152, R159). -/
inductive Sector where
  | s0
  | s1
  | s2
  | s3
  | s4
  | s5
  deriving DecidableEq, Repr

/-- The sector of index `I` (R152); the index is at most 5 (R159). -/
def sectorOfIndex : Nat → Sector
  | 0 => .s0
  | 1 => .s1
  | 2 => .s2
  | 3 => .s3
  | 4 => .s4
  | _ => .s5

/-- The six-row sector table (R152): which of v, p, q, t each channel is. -/
def sectorRow (i : Sector) (v p q t : Byte) : Colour :=
  match i with
  | .s0 => ⟨v, t, p⟩
  | .s1 => ⟨q, v, p⟩
  | .s2 => ⟨p, v, t⟩
  | .s3 => ⟨p, q, v⟩
  | .s4 => ⟨t, p, v⟩
  | .s5 => ⟨v, p, q⟩

/-- HSV2RGB's colours (R152): a hue byte of 255 is 360 degrees and is treated as 0. -/
def hsv2rgbColour (c : Colour) : Colour :=
  let h := if c.c1.toNat = 255 then 0 else c.c1.toNat
  let i := 6 * h / 255
  let f : Int := ((6 * h - 255 * i : Nat) : Int)
  let s := chan c.c2
  let v := chan c.c3
  sectorRow (sectorOfIndex i) c.c3
    (quantDiv (v * (255 - s)) 255)
    (quantDiv (v * (65025 - s * f)) 65025)
    (quantDiv (v * (65025 - s * (255 - f))) 65025)

/-- RGB2HLS, operation code 8 (R148). -/
def execRgb2hls (s : State) : Host.Outcome State Fault Refusal := pixelStep rgb2hlsColour s

/-- HLS2RGB, operation code 9 (R150). -/
def execHls2rgb (s : State) : Host.Outcome State Fault Refusal := pixelStep hls2rgbColour s

/-- RGB2HSV, operation code 10 (R151). -/
def execRgb2hsv (s : State) : Host.Outcome State Fault Refusal := pixelStep rgb2hsvColour s

/-- HSV2RGB, operation code 11 (R152). -/
def execHsv2rgb (s : State) : Host.Outcome State Fault Refusal := pixelStep hsv2rgbColour s

end Sys2Proof.Machine
end

