-- ==== Sys2Proof/Machine/Xyz.lean ====
section
/-! DEFINITION. MTX, the matrix transform unit, part 2: RGB2XYZ and XYZ2RGB with the OPEN matrices
(spec/43_xyz.md R138, R139, R141). -/

namespace Sys2Proof.Machine

/-- The output of one matrix row (R141): `clamp(0, 255, tdiv(a_1*C1 + a_2*C2 + a_3*C3, Dn))`. -/
def rowOutput (row : MatrixRow) (c : Colour) : Byte :=
  quantDiv (row.a1 * chan c.c1 + row.a2 * chan c.c2 + row.a3 * chan c.c3) (row.den : Int)

/-- The three outputs of a matrix (R138, R139). -/
def matrixColour (m : Matrix3) (c : Colour) : Colour :=
  ⟨rowOutput m.row1 c, rowOutput m.row2 c, rowOutput m.row3 c⟩

/-- RGB2XYZ's colours (R138). -/
def rgb2xyzColour (cfg : Config) (c : Colour) : Colour := matrixColour cfg.xyzFwd c

/-- XYZ2RGB's colours (R139). -/
def xyz2rgbColour (cfg : Config) (c : Colour) : Colour := matrixColour cfg.xyzInv c

/-- RGB2XYZ, operation code 6 (R138). -/
def execRgb2xyz (s : State) : Host.Outcome State Fault Refusal := pixelStep (rgb2xyzColour s.config) s

/-- XYZ2RGB, operation code 7 (R139). -/
def execXyz2rgb (s : State) : Host.Outcome State Fault Refusal := pixelStep (xyz2rgbColour s.config) s

end Sys2Proof.Machine
end

