-- ==== Sys2Proof/Machine/YCbCrYuv.lean ====
section
/-! DEFINITION. MTX, the matrix transform unit, part 1: RGB2YCBCR, YCBCR2RGB, RGB2YUV, YUV2RGB
(spec/42_ycbcr_yuv.md R120 to R123), in the integer forms of those rules. -/

namespace Sys2Proof.Machine

/-- RGB2YCBCR's colours (R120). -/
def rgb2ycbcrColour (c : Colour) : Colour :=
  let r := chan c.c1
  let g := chan c.c2
  let b := chan c.c3
  ⟨quantDiv (257 * r + 504 * g + 98 * b + 16000) 1000,
   quantDiv (-148 * r - 291 * g + 439 * b + 128000) 1000,
   quantDiv (439 * r - 368 * g - 71 * b + 128000) 1000⟩

/-- YCBCR2RGB's colours (R121): Y in C1, Cb in C2, Cr in C3, any byte values. -/
def ycbcr2rgbColour (c : Colour) : Colour :=
  let y := chan c.c1 - 16
  let cb := chan c.c2 - 128
  let cr := chan c.c3 - 128
  ⟨quantDiv (1164 * y + 1596 * cr) 1000,
   quantDiv (1164 * y - 813 * cr - 392 * cb) 1000,
   quantDiv (1164 * y + 2017 * cb) 1000⟩

/-- RGB2YUV's colours (R122): `yk` is 1000 times the exact luma. -/
def rgb2yuvColour (c : Colour) : Colour :=
  let r := chan c.c1
  let g := chan c.c2
  let b := chan c.c3
  let yk := 299 * r + 587 * g + 114 * b
  ⟨quantDiv (yk + 16000) 1000,
   quantDiv (492 * (1000 * b - yk) + 128000000) 1000000,
   quantDiv (877 * (1000 * r - yk) + 128000000) 1000000⟩

/-- YUV2RGB's colours (R123): the offsets 16, 128, 128 subtracted first. -/
def yuv2rgbColour (c : Colour) : Colour :=
  let y := chan c.c1 - 16
  let u := chan c.c2 - 128
  let v := chan c.c3 - 128
  ⟨quantDiv (1000 * y + 1140 * v) 1000,
   quantDiv (1000 * y - 394 * u - 581 * v) 1000,
   quantDiv (1000 * y + 2032 * u) 1000⟩

/-- RGB2YCBCR, operation code 2 (R120). -/
def execRgb2ycbcr (s : State) : Host.Outcome State Fault Refusal := pixelStep rgb2ycbcrColour s

/-- YCBCR2RGB, operation code 3 (R121). -/
def execYcbcr2rgb (s : State) : Host.Outcome State Fault Refusal := pixelStep ycbcr2rgbColour s

/-- RGB2YUV, operation code 4 (R122). -/
def execRgb2yuv (s : State) : Host.Outcome State Fault Refusal := pixelStep rgb2yuvColour s

/-- YUV2RGB, operation code 5 (R123). -/
def execYuv2rgb (s : State) : Host.Outcome State Fault Refusal := pixelStep yuv2rgbColour s

end Sys2Proof.Machine
end

