-- ==== Sys2Proof/Machine/YCoCg.lean ====
section
/-! DEFINITION. MTX, the matrix transform unit, part 3: RGB2YCOCG and YCOCG2RGB, both rows as written
(spec/45_ycocg.md R170, R171). -/

namespace Sys2Proof.Machine

/-- RGB2YCOCG's colours (R170): no offset, so a negative Co or Cg is stored as 0. -/
def rgb2ycocgColour (c : Colour) : Colour :=
  let r := chan c.c1
  let g := chan c.c2
  let b := chan c.c3
  ⟨quantDiv (r + 2 * g + b + 2) 4, quantDiv (r - b + 1) 2, quantDiv (-r + 2 * g - b + 2) 4⟩

/-- YCOCG2RGB's colours (R171): the stored bytes are read as non-negative integers. -/
def ycocg2rgbColour (c : Colour) : Colour :=
  let y := chan c.c1
  let co := chan c.c2
  let cg := chan c.c3
  ⟨clampByte (y + co - cg), clampByte (y + cg), clampByte (y - co - cg)⟩

/-- RGB2YCOCG, operation code 12 (R170). -/
def execRgb2ycocg (s : State) : Host.Outcome State Fault Refusal := pixelStep rgb2ycocgColour s

/-- YCOCG2RGB, operation code 13 (R171). -/
def execYcocg2rgb (s : State) : Host.Outcome State Fault Refusal := pixelStep ycocg2rgbColour s

end Sys2Proof.Machine
end

