-- ==== Sys2Proof/Machine/Dispatch.lean ====
section
/-! DEFINITION. The dispatch from instructions to their meanings (spec/40_driver_and_quantizer.md R98). -/

namespace Sys2Proof.Machine

def exec (i : Instr) (s : State) : Host.Outcome State Fault Refusal :=
  match i with
  | .gray => Sys2Proof.Machine.execGray s
  | .pgray => Sys2Proof.Machine.execPgray s
  | .rgb2ycbcr => Sys2Proof.Machine.execRgb2ycbcr s
  | .ycbcr2rgb => Sys2Proof.Machine.execYcbcr2rgb s
  | .rgb2yuv => Sys2Proof.Machine.execRgb2yuv s
  | .yuv2rgb => Sys2Proof.Machine.execYuv2rgb s
  | .rgb2xyz => Sys2Proof.Machine.execRgb2xyz s
  | .xyz2rgb => Sys2Proof.Machine.execXyz2rgb s
  | .rgb2hls => Sys2Proof.Machine.execRgb2hls s
  | .hls2rgb => Sys2Proof.Machine.execHls2rgb s
  | .rgb2hsv => Sys2Proof.Machine.execRgb2hsv s
  | .hsv2rgb => Sys2Proof.Machine.execHsv2rgb s
  | .rgb2ycocg => Sys2Proof.Machine.execRgb2ycocg s
  | .ycocg2rgb => Sys2Proof.Machine.execYcocg2rgb s
  | .gamma => Sys2Proof.Machine.execGamma s
  | .start => Sys2Proof.Machine.execStart s
  | .clr => Sys2Proof.Machine.execClr s

end Sys2Proof.Machine
end

