-- ==== Sys2Proof/Machine/HostPort.lean ====
section
/-! DEFINITION. The host's moves on the register port and the two memory ports (spec/47_host_commands.md R190 to R197),
and what they do when they race with a run (spec/20_memory.md R61). -/

namespace Sys2Proof.Machine

/-- `T_op` (R98): the transform of an operation code; a command has none. -/
def transformOf (cfg : Config) : Instr → Option (Colour → Colour)
  | .gray => some grayColour
  | .pgray => some pgrayColour
  | .rgb2ycbcr => some rgb2ycbcrColour
  | .ycbcr2rgb => some ycbcr2rgbColour
  | .rgb2yuv => some rgb2yuvColour
  | .yuv2rgb => some yuv2rgbColour
  | .rgb2xyz => some (rgb2xyzColour cfg)
  | .xyz2rgb => some (xyz2rgbColour cfg)
  | .rgb2hls => some rgb2hlsColour
  | .hls2rgb => some hls2rgbColour
  | .rgb2hsv => some rgb2hsvColour
  | .hsv2rgb => some hsv2rgbColour
  | .rgb2ycocg => some rgb2ycocgColour
  | .ycocg2rgb => some ycocg2rgbColour
  | .gamma => some gammaColour
  | .start => none
  | .clr => none

/-- `F` of the run in progress (R95): the transform that OP selects, on a pixel word. Under the reserved code there is
none. -/
def runFunction (s : State) : Option (Word → Word) :=
  match decode (.op4 s.op) with
  | .instr i => (transformOf s.config i).map pixelFunction
  | .rejected _ => none

/-! ### What a read returns -/

/-- The reply of a host read, put at the front of the list. Log entry 17. -/
def State.reply (w : Word) (s : State) : State := { s with replies := w :: s.replies }

/-- The reply of a read of the word at `i` of memory `m`: a word nobody has written is a free word (R60, U1). -/
def State.replyFrom (m : Mem) (i : Nat) (s : State) : State :=
  { s with replies := memWord m i s.draws :: s.replies, draws := memDraws m i s.draws }

/-! ### Racing accesses (R61, U3): a free coin takes one of the two outcomes -/

/-- Index `i` belongs to the run in progress. -/
def State.inRun (i : Nat) (s : State) : Bool := s.busy && decide (i < s.rasterSize)

/-- Index `i` belongs to the run and its pixel step is still to come. -/
def State.ahead (i : Nat) (s : State) : Bool := s.inRun i && decide (s.scanIndex ≤ i)

/-- The coin of the next draw. -/
def State.coin (s : State) : Bool := Config.freeCoin s.draws

/-- The engine takes hold of the IMEM word `i` ahead of its pixel step, and keeps it until then. -/
def State.hold (i : Nat) (s : State) : State :=
  if (staleWord s.race.stale i).isSome then s
  else
    { s with
      race := { s.race with stale := (i, memWord s.imem i s.draws) :: s.race.stale }
      draws := memDraws s.imem i s.draws }

/-- The state after the draw of a coin. -/
def State.drawCoin (s : State) : State := { s with draws := s.draws + 1 }

/-- Before a racing host write to IMEM[i]: the engine may already hold the old word, and then transforms that one
(R61). Log entry 9. -/
def State.markStale (i : Nat) (s : State) : State :=
  if s.ahead i then if s.coin then s.drawCoin.hold i else s.drawCoin else s

/-- `IMEM[i] = w` (R196). -/
def hostWriteImem (i : Nat) (w : Word) (s : State) : State :=
  { s.markStale i with imem := memWriteWord s.imem i w }

/-- A write of an OMEM word whose pixel step is still to come: the coin says whether it remains or the engine's store
does (R61). The last host write of the word decides. Log entry 10. -/
def State.raceAhead (i : Nat) (w : Word) (s : State) : State :=
  { s with
    omem := memWriteWord s.omem i w
    race := { s.race with
      kept := if s.coin then i :: s.race.kept else s.race.kept.filter (· != i)
      before := memWriteWord s.race.before i w }
    draws := s.draws + 1 }

/-- A write of an OMEM word that the engine has stored: the coin says whether it remains or the engine's word does, which
is then what OMEM holds, whatever the host wrote there earlier in the run (R61). Log entry 10. -/
def State.raceBehind (i : Nat) (w : Word) (s : State) : State :=
  { s with
    omem := memWriteWord s.omem i (if s.coin then w else memWord s.race.stored i (s.draws + 1))
    race := { s.race with before := memWriteWord s.race.before i w }
    draws := if s.coin then s.draws + 1 else memDraws s.race.stored i (s.draws + 1) }

/-- `OMEM[i] = w` (R197); in a race with the engine's write of the same word either may remain (R61). -/
def hostWriteOmem (i : Nat) (w : Word) (s : State) : State :=
  if s.ahead i then s.raceAhead i w
  else if s.inRun i then s.raceBehind i w
  else { s with omem := memWriteWord s.omem i w }

/-- A read of `IMEM[i]` (R196), harmless at any time (R61). -/
def hostReadImem (i : Nat) (s : State) : State := s.replyFrom s.imem i

/-- The reply with the transformed pixel of an OMEM word whose pixel step is still to come: the engine holds its IMEM word
from then on, so that the run stores the word that was read. Under the reserved code there is no transform, and the
word from before the run is read. Log entry 10. -/
def State.replyEarly (i : Nat) (s : State) : State :=
  match runFunction s with
  | some f => (s.hold i).reply (f ((s.hold i).fetchWord i))
  | none => s.replyFrom s.race.before i

/-- A read of `OMEM[i]` (R197). In a race with the run the coin says whether it returns the word from before the run or
the transformed pixel (R61). Log entry 10. -/
def hostReadOmem (i : Nat) (s : State) : State :=
  if s.inRun i then
    if s.coin then s.drawCoin.replyFrom s.race.before i
    else if s.ahead i then s.drawCoin.replyEarly i
    else s.drawCoin.replyFrom s.race.stored i
  else s.replyFrom s.omem i

/-! ### The moves -/

/-- `WR idx, v` (R191): a write to CTRL is a command (R25, R71), any other a register write. -/
def hostWriteReg (idx : BitVec 3) (v : Word) (s : State) : Host.Outcome State Fault Refusal :=
  match decodeReg idx with
  | .ctrl =>
    match decode (.ctrl v) with
    | .instr i => exec i s
    | .rejected _ => .next s
  | r => .next (writeReg r v s)

/-- `RD idx` (R192). -/
def hostReadReg (idx : BitVec 3) (s : State) : State := s.reply (readReg (decodeReg idx) s)

/-- A word written by the host (R196, R197). -/
def hostWriteMem (sp : Space) (i : Nat) (w : Word) (s : State) : State :=
  match sp with
  | .imem => hostWriteImem i w s
  | .omem => hostWriteOmem i w s

/-- A word read by the host (R196, R197). -/
def hostReadMem (sp : Space) (i : Nat) (s : State) : State :=
  match sp with
  | .imem => hostReadImem i s
  | .omem => hostReadOmem i s

/-- One host move (R190). A memory access at or above `MEM_PIXELS` is not a legal move and is refused (U4). -/
def hostMove (m : HostMove) (s : State) : Host.Outcome State Fault Refusal :=
  if m.wf s.config.memPixels then
    match m with
    | .writeReg idx v => hostWriteReg idx v s
    | .readReg idx => .next (hostReadReg idx s)
    | .writeMem sp i w => .next (hostWriteMem sp i w s)
    | .readMem sp i => .next (hostReadMem sp i s)
  else .refused .hostIndexOutOfRange

end Sys2Proof.Machine
end

