-- ==== Sys2Proof/Machine/Engine.lean ====
section
/-! DEFINITION. The engine's turn (spec/40_driver_and_quantizer.md R85), one turn of the system
(spec/47_host_commands.md R190), and how an encoded instruction is put before the machine. -/

namespace Sys2Proof.Machine

/-- The engine's turn (R85): the pixel step of the transform OP selects (R74, R98), or the finish step, or nothing. An
engine that is idle does nothing; log entry 12 covers the states with BUSY = 1 that no run reaches. -/
def engineTurn (s : State) : Host.Outcome State Fault Refusal :=
  if s.pixelEnabled then
    match decode (.op4 s.op) with
    | .instr i => exec i s
    | .rejected _ => .fault .reservedCodeInRun
  else if s.finishEnabled then .next s.finishRun
  else .next s

/-- One turn: a host move, an engine step or a reset (R190, R235). -/
def takeTurn (t : Turn) (s : State) : Host.Outcome State Fault Refusal :=
  match t with
  | .host m => hostMove m s
  | .engine => engineTurn s
  | .reset => .next s.resetEvent

/-- The next turn of the list; when none is left the engine has the turn (the progress assumption of R245). -/
def nextTurn (s : State) : Host.Outcome State Fault Refusal :=
  match s.turns with
  | [] => engineTurn s
  | t :: rest => takeTurn t { s with turns := rest }

/-- The machine about to run an encoded instruction at its very next step: an operation code stands in OP of a run over
a 1 by 1 raster at its only pixel; a command word is the host's next register write. Log entry 2. -/
def State.presentCode (c : Code) (s : State) : State :=
  match c with
  | .op4 op =>
    { s with op := op, width := 1#16, height := 1#16, status := 1#3, errcode := 0#2, scanx := 0#16, scany := 0#16
             race := RaceBook.ofRun s.omem, turns := Turn.engine :: s.turns }
  | .ctrl v => { s with turns := Turn.host (.writeReg 0#3 v) :: s.turns }

end Sys2Proof.Machine
end

