-- ==== Sys2Proof/Machine/Step.lean ====
section
/-! DEFINITION. One step of the machine, and the placing of a table word where the step takes its next instruction
from. -/

namespace Sys2Proof.Machine

/-- One step: the next turn of the interleaving (R85, R190). -/
def step (s : State) : Host.Outcome State Fault Refusal := nextTurn s

/-- The state with an opcode-table word placed so that the very next step runs it (the host's fixed name). Log
entries 2 and 3. -/
def State.withFetchWord (s : State) (nbits w : Nat) : State := s.presentCode (codeOfTableWord nbits w)

end Sys2Proof.Machine
end

