-- ==== Sys2Proof/Machine/Formulas.lean ====
section
/-! DEFINITION. The transforms' formulas over the exact rationals, as the rules write them first (spec/00_scope.md R11,
R15). The machine computes the integer forms; the statements compare the two. -/

namespace Sys2Proof.Machine

/-- A channel as the rational 0..255 (R15). -/
def chanQ (b : Byte) : ℚ := (chan b : ℚ)

/-- A channel normalised to [0, 1] (R15, R92). -/
def norm (b : Byte) : ℚ := chanQ b / 255

/-- `clamp(lo, hi, v)` over the rationals (R12). -/
def clampQ (lo hi v : ℚ) : ℚ := if v < lo then lo else if hi < v then hi else v

/-- The scaling of HLS2RGB (R150): `min(255, trunc(256 * v))`. -/
def scale256 (v : ℚ) : Byte := BitVec.ofNat 8 (min 255 (trunc (256 * v))).toNat

/-- GRAY (R110). -/
def grayFormula (c : Colour) : Colour :=
  let y := quantise (299 / 1000 * chanQ c.c1 + 587 / 1000 * chanQ c.c2 + 114 / 1000 * chanQ c.c3)
  ⟨y, y, y⟩

/-- RGB2YCBCR (R120). -/
def rgb2ycbcrFormula (c : Colour) : Colour :=
  let r := chanQ c.c1
  let g := chanQ c.c2
  let b := chanQ c.c3
  ⟨quantise (257 / 1000 * r + 504 / 1000 * g + 98 / 1000 * b + 16),
   quantise (-148 / 1000 * r - 291 / 1000 * g + 439 / 1000 * b + 128),
   quantise (439 / 1000 * r - 368 / 1000 * g - 71 / 1000 * b + 128)⟩

/-- YCBCR2RGB (R121). -/
def ycbcr2rgbFormula (c : Colour) : Colour :=
  let y := chanQ c.c1 - 16
  let cb := chanQ c.c2 - 128
  let cr := chanQ c.c3 - 128
  ⟨quantise (1164 / 1000 * y + 1596 / 1000 * cr),
   quantise (1164 / 1000 * y - 813 / 1000 * cr - 392 / 1000 * cb),
   quantise (1164 / 1000 * y + 2017 / 1000 * cb)⟩

/-- RGB2YUV (R122). -/
def rgb2yuvFormula (c : Colour) : Colour :=
  let r := chanQ c.c1
  let b := chanQ c.c3
  let y := 299 / 1000 * r + 587 / 1000 * chanQ c.c2 + 114 / 1000 * b
  ⟨quantise (y + 16), quantise (492 / 1000 * (b - y) + 128), quantise (877 / 1000 * (r - y) + 128)⟩

/-- YUV2RGB (R123). -/
def yuv2rgbFormula (c : Colour) : Colour :=
  let y := chanQ c.c1 - 16
  let u := chanQ c.c2 - 128
  let v := chanQ c.c3 - 128
  ⟨quantise (y + 1140 / 1000 * v), quantise (y - 394 / 1000 * u - 581 / 1000 * v),
   quantise (y + 2032 / 1000 * u)⟩

/-- One row of an XYZ transform (R138, R139): the matrix row on the normalised channels, clamped to [0, 1], scaled by
255 and quantised. -/
def rowFormula (row : MatrixRow) (c : Colour) : Byte :=
  quantise (255 * clampQ 0 1
    ((row.a1 : ℚ) / row.den * norm c.c1 + (row.a2 : ℚ) / row.den * norm c.c2 + (row.a3 : ℚ) / row.den * norm c.c3))

/-- RGB2XYZ and XYZ2RGB for a matrix (R138, R139). -/
def matrixFormula (m : Matrix3) (c : Colour) : Colour :=
  ⟨rowFormula m.row1 c, rowFormula m.row2 c, rowFormula m.row3 c⟩

/-- `hue(R, G, B)` in degrees (R146). -/
def hueDegrees (r g b : ℚ) : ℚ :=
  let mx := max r (max g b)
  let d := mx - min r (min g b)
  let h := 60 * (if r = mx then (g - b) / d else if g = mx then 2 + (b - r) / d else 4 + (r - g) / d)
  if d = 0 then 0 else if h < 0 then h + 360 else h

/-- RGB2HLS (R148). -/
def rgb2hlsFormula (c : Colour) : Colour :=
  let m1 := max (norm c.c1) (max (norm c.c2) (norm c.c3))
  let m2 := min (norm c.c1) (min (norm c.c2) (norm c.c3))
  let l := (m1 + m2) / 2
  let s := if m1 = m2 then 0 else if l ≤ 1 / 2 then (m1 - m2) / (m1 + m2) else (m1 - m2) / (2 - m1 - m2)
  ⟨quantise (hueDegrees (chanQ c.c1) (chanQ c.c2) (chanQ c.c3) / 360 * 255), quantise (l * 255), quantise (s * 255)⟩

/-- The hue-to-channel helper `hue2ch(p, q, t)` (R149). -/
def hue2ch (p q t : ℚ) : ℚ :=
  let t1 := if t < 0 then t + 1 else t
  let t2 := if 1 ≤ t1 then t1 - 1 else t1
  if t2 < 1 / 6 then p + (q - p) * 6 * t2
  else if t2 < 1 / 2 then q
  else if t2 < 2 / 3 then p + (q - p) * (2 / 3 - t2) * 6
  else p

/-- HLS2RGB (R150). -/
def hls2rgbFormula (c : Colour) : Colour :=
  let h := norm c.c1
  let l := norm c.c2
  let s := norm c.c3
  if s = 0 then ⟨scale256 l, scale256 l, scale256 l⟩
  else
    let q := if l < 1 / 2 then l * (1 + s) else l + s - l * s
    let p := 2 * l - q
    ⟨scale256 (hue2ch p q (h + 1 / 3)), scale256 (hue2ch p q h), scale256 (hue2ch p q (h - 1 / 3))⟩

/-- RGB2HSV (R151). -/
def rgb2hsvFormula (c : Colour) : Colour :=
  let v := max (norm c.c1) (max (norm c.c2) (norm c.c3))
  let m := min (norm c.c1) (min (norm c.c2) (norm c.c3))
  let s := if v = 0 then 0 else (v - m) / v
  ⟨quantise (hueDegrees (chanQ c.c1) (chanQ c.c2) (chanQ c.c3) / 360 * 255), quantise (s * 255), quantise (v * 255)⟩

/-- HSV2RGB (R152). -/
def hsv2rgbFormula (c : Colour) : Colour :=
  let h0 := chanQ c.c1 * 360 / 255
  let h := if h0 = 360 then 0 else h0
  let s := norm c.c2
  let v := norm c.c3
  let i := ⌊h / 60⌋
  let f := h / 60 - i
  let p := quantise (255 * (v * (1 - s)))
  let q := quantise (255 * (v * (1 - s * f)))
  let t := quantise (255 * (v * (1 - s * (1 - f))))
  let w := quantise (255 * v)
  if i = 0 then ⟨w, t, p⟩
  else if i = 1 then ⟨q, w, p⟩
  else if i = 2 then ⟨p, w, t⟩
  else if i = 3 then ⟨p, q, w⟩
  else if i = 4 then ⟨t, p, w⟩
  else ⟨w, p, q⟩

/-- RGB2YCOCG (R170). -/
def rgb2ycocgFormula (c : Colour) : Colour :=
  let r := chanQ c.c1
  let g := chanQ c.c2
  let b := chanQ c.c3
  ⟨quantise ((r + 2 * g + b + 2) / 4), quantise ((r - b + 1) / 2), quantise ((-r + 2 * g - b + 2) / 4)⟩

/-- YCOCG2RGB (R171). -/
def ycocg2rgbFormula (c : Colour) : Colour :=
  let y := chanQ c.c1
  let co := chanQ c.c2
  let cg := chanQ c.c3
  ⟨quantise (y + co - cg), quantise (y + cg), quantise (y - co - cg)⟩

end Sys2Proof.Machine
end

