-- ==== Sys2Proof/Machine/Notation.lean ====
section
/-! DEFINITION. The notation for host programs as lists of turns (spec/30_encoding.md R77, R78). None of it is hardware
(R78): it is shorthand for moves of R190, for the statements. -/

namespace Sys2Proof.Machine

/-- `WR <reg>, <v>` (R77). -/
def wrTurn (idx : BitVec 3) (v : Word) : Turn := .host (.writeReg idx v)

/-- `START`: `WR CTRL, 1` (R77, R193). -/
def startTurn : Turn := wrTurn 0#3 1#32

/-- `CLR`: `WR CTRL, 2` (R77, R194). -/
def clrTurn : Turn := wrTurn 0#3 2#32

/-- `SETUP <op>, <w>, <h>` (R78). -/
def setupTurns (op : BitVec 4) (w h : Half) : List Turn :=
  [wrTurn 1#3 (op.setWidth 32), wrTurn 2#3 (w.setWidth 32), wrTurn 3#3 (h.setWidth 32)]

/-- `IMEM[i] = p0 ; IMEM[i+1] = p1 ; ...` -/
def fillFrom : Nat → List Word → List Turn
  | _, [] => []
  | i, p :: rest => .host (.writeMem .imem i p) :: fillFrom (i + 1) rest

/-- `FILL p0, p1, ...` (R78). -/
def fillTurns (ps : List Word) : List Turn := fillFrom 0 ps

/-- `COPYBACK <n>` (R78) of a host that has read the words `ps` of OMEM, from index `i`: each word read again and
written to IMEM at the same index. -/
def copyBackFrom : Nat → List Word → List Turn
  | _, [] => []
  | i, p :: rest => .host (.readMem .omem i) :: .host (.writeMem .imem i p) :: copyBackFrom (i + 1) rest

end Sys2Proof.Machine
end

