-- ==== Sys2Proof/Safety.lean ====
section
/-! DEFINITION. What the statements speak of: a state ready for a pixel step, what a pixel step leaves, the invariant of
spec/10_state.md R40, and the host's duties during a run (spec/70_reset_and_hazards.md R240, R242). -/

namespace Sys2Proof.Machine

/-- A pixel step is enabled (R85) and its index exists (R52). -/
def State.pixelReady (s : State) : Prop := s.pixelEnabled = true ∧ s.scanIndex < s.config.memPixels

/-- The byte address `a` belongs to the word at pixel index `i` (R47). -/
def inWord (i a : Nat) : Prop := 4 * i ≤ a ∧ a < 4 * i + 4

/-- What a pixel step with transform `T` leaves (R86 to R89, R96): PIN holds the word the engine read at the scan
index, POUT the transformed colours and the copied alpha, OMEM holds POUT at the same index (unless a racing host write
remains there, and then OMEM is unchanged: R61, log entry 10), and the scan position has advanced by R88. Nothing else has changed: no flag, no register
but the scan position, no other byte of OMEM, no byte of IMEM. -/
structure PixelStepResult (T : Colour → Colour) (s t : State) : Prop where
  pin     : t.pin = unpack (s.fetchWord s.scanIndex)
  colours : t.pout.colour = T t.pin.colour
  alpha   : t.pout.a = t.pin.a
  stored  : s.scanIndex ∉ s.race.kept → ∀ n, memWord t.omem s.scanIndex n = pack t.pout
  kept    : s.scanIndex ∈ s.race.kept → t.omem = s.omem
  others  : ∀ a, ¬ inWord s.scanIndex a → memByte t.omem a = memByte s.omem a
  imem    : t.imem = s.imem
  scan    : (t.scanx.toNat, t.scany.toNat) =
              if s.scanx.toNat + 1 < s.width.toNat then (s.scanx.toNat + 1, s.scany.toNat)
              else (0, s.scany.toNat + 1)
  op      : t.op = s.op
  width   : t.width = s.width
  height  : t.height = s.height
  status  : t.status = s.status
  errcode : t.errcode = s.errcode
  config  : t.config = s.config
  stale   : t.race.stale = s.race.stale
  keeping : t.race.kept = s.race.kept
  before  : t.race.before = s.race.before
  record  : t.race.stored = memWriteWord s.race.stored s.scanIndex (pack t.pout)
  turns   : t.turns = s.turns
  replies : t.replies = s.replies

/-- Everything a command may not touch is as it was (R193, R194, R211): the configuration registers, the latches, both
memories, and the model's own fields but the record of races. -/
structure SameBesideReport (s t : State) : Prop where
  op      : t.op = s.op
  width   : t.width = s.width
  height  : t.height = s.height
  pin     : t.pin = s.pin
  pout    : t.pout = s.pout
  imem    : t.imem = s.imem
  omem    : t.omem = s.omem
  config  : t.config = s.config
  draws   : t.draws = s.draws
  turns   : t.turns = s.turns
  replies : t.replies = s.replies

/-- The registers, the latches and the parameters are as they were: what a host access to a memory may not touch
(R196, R197). -/
structure SameRegisters (s t : State) : Prop where
  op      : t.op = s.op
  width   : t.width = s.width
  height  : t.height = s.height
  status  : t.status = s.status
  errcode : t.errcode = s.errcode
  scanx   : t.scanx = s.scanx
  scany   : t.scany = s.scany
  pin     : t.pin = s.pin
  pout    : t.pout = s.pout
  config  : t.config = s.config

/-- Everything a host access to word `i` that races with a run may not touch (R61): the registers, the latches, the
turns, every other byte of both memories, and the record of races of every other word. -/
structure SameBesideWord (i : Nat) (s t : State) : Prop where
  registers : SameRegisters s t
  turns     : t.turns = s.turns
  imem      : ∀ a, ¬ inWord i a → memByte t.imem a = memByte s.imem a
  omem      : ∀ a, ¬ inWord i a → memByte t.omem a = memByte s.omem a
  stale     : ∀ j, j ≠ i → staleWord t.race.stale j = staleWord s.race.stale j
  kept      : ∀ j, j ≠ i → (j ∈ t.race.kept ↔ j ∈ s.race.kept)
  before    : ∀ a, ¬ inWord i a → memByte t.race.before a = memByte s.race.before a
  stored    : t.race.stored = s.race.stored

/-- Byte `b` is the real number `x` truncated toward zero and limited to 0..255: `Q(x)` of R90 over the reals. -/
def IsQuantised (x : ℝ) (b : Byte) : Prop :=
  (b.toNat : Int) = max 0 (min 255 (if 0 ≤ x then ⌊x⌋ else -⌊-x⌋))

/-- `y` is the sRGB curve of R112 at `x`. -/
def IsSrgbCurve (x y : ℝ) : Prop :=
  (x ≤ 31308 / 10000000 → y = 1292 / 100 * x) ∧
  (31308 / 10000000 < x → y = 1055 / 1000 * x ^ (5 / 12 : ℝ) - 55 / 1000)

/-- `y` is the BT.709-style curve of R181 at `x`. -/
def IsBt709Curve (x y : ℝ) : Prop :=
  (x < 18 / 1000 → y = 45 / 10 * x) ∧
  (18 / 1000 ≤ x → y = 1099 / 1000 * x ^ (9 / 20 : ℝ) - 99 / 1000)

/-- The invariant of R40 (a) to (c) with the ranges of R29 to R32, and the canonical form and extent of the memories. -/
structure State.Inv (s : State) : Prop where
  /-- At most one flag is 1 (R29, R40 (a)). -/
  status    : s.status = 0#3 ∨ s.status = 1#3 ∨ s.status = 2#3 ∨ s.status = 4#3
  /-- ERRCODE is non-zero exactly when ERR = 1 (R30, R40 (b)). -/
  errIff    : s.errcode ≠ 0#2 ↔ s.err = true
  /-- ERRCODE is never 3 (R30, R40 (b)). -/
  errCode   : s.errcode ≠ 3#2
  /-- During a run OP is 0..14 (R40 (c), R98). -/
  runCode   : s.busy = true → s.op ≠ 15#4
  /-- During a run the raster fits (R40 (c)). -/
  runSize   : s.busy = true → s.rasterSize ≤ s.config.memPixels
  /-- During a run the scan position is inside the raster, or the finish step is enabled (R31, R40 (c)). -/
  runScan   : s.busy = true →
    (s.scanx.toNat < s.width.toNat ∧ s.scany.toNat < s.height.toNat) ∨
    (s.scanx = 0#16 ∧ s.scany = s.height) ∨ (s.width = 0#16 ∧ s.scanx = 0#16 ∧ s.scany = 0#16)
  /-- An idle engine has SCANX = 0 (R22, R31). -/
  idleScan  : s.busy = false → s.scanx = 0#16
  imemForm  : Mem.wf s.imem
  omemForm  : Mem.wf s.omem
  priorForm : Mem.wf s.race.before
  imemRange : Mem.inRange s.imem s.config.memPixels
  omemRange : Mem.inRange s.omem s.config.memPixels
  priorRange : Mem.inRange s.race.before s.config.memPixels
  storedForm : Mem.wf s.race.stored
  storedRange : Mem.inRange s.race.stored s.config.memPixels
  /-- During a run every word behind the scan position has been stored (R40 (d)). -/
  storedAll : s.busy = true → ∀ i, i < s.scanIndex → memWritten s.race.stored i = true

/-- A turn a host that keeps its duties may take while BUSY = 1 (R242): any register access, a legal read of IMEM; or
an engine step. -/
def turnKeepsDuties (memPixels : Nat) : Turn → Bool
  | .host (.writeReg _ _) => true
  | .host (.readReg _) => true
  | .host (.readMem .imem i) => decide (i < memPixels)
  | .host (.readMem .omem _) => false
  | .host (.writeMem _ _ _) => false
  | .engine => true
  | .reset => false

/-- The host has filled IMEM for the raster (R240). -/
def State.filled (s : State) : Prop := ∀ i, i < s.rasterSize → memWritten s.imem i = true

/-- Behind the scan position OMEM holds the transform `F` of IMEM; from there to the end of the raster it holds what it
held without this run (R40 (d)). -/
def State.behindScan (F : Word → Word) (s : State) : Prop :=
  (∀ i, i < s.scanIndex → ∀ n, memWord s.omem i n = F (memWord s.imem i 0)) ∧
  (∀ a, 4 * s.scanIndex ≤ a → a < 4 * s.rasterSize → memByte s.omem a = memByte s.race.before a)

/-- The end of a run of the transform `F` that began with the memories and registers of `s` (R199, R248). -/
structure RunResult (F : Word → Word) (s t : State) : Prop where
  status  : t.status = 2#3
  errcode : t.errcode = 0#2
  scanx   : t.scanx = 0#16
  scany   : t.scany = if s.width = 0#16 then 0#16 else s.height
  pixels  : ∀ i, i < s.rasterSize → ∀ n, memWord t.omem i n = F (memWord s.imem i 0)
  outside : ∀ a, 4 * s.rasterSize ≤ a → memByte t.omem a = memByte s.omem a
  imem    : t.imem = s.imem
  op      : t.op = s.op
  width   : t.width = s.width
  height  : t.height = s.height
  config  : t.config = s.config

end Sys2Proof.Machine
end

