-- ==== Sys2Proof/Certificates/Slice0/Obligations.lean ====
section
/-! DEFINITION. The statements for the provers, in the order of OBLIGATIONS.json. -/

open Sys2Proof Sys2Proof.Machine

/-! ### Encoding -/

/-- The encoder writes a well-formed word and the decoder reads the instruction back (R71, R73). -/
def Obligations.DecodeOfEncodeIsTheInstruction : Prop :=
  ∀ i : Instr, (encode i).wf = true ∧ decode (encode i) = .instr i

/-- Words of spec/opcode_table.json, written out, decode to their rows' instructions; the reserved code and a command
word without a command bit do not; each operation code 0..14 is the transform of its row of R73, in order. That 8-bit
words are operation codes and 32-bit words command words is the model's choice (log entry 3). -/
def Obligations.OpcodeTableWordsDecode : Prop :=
  decodeTableWord 8 0x0 = some .gray ∧ decodeTableWord 8 0x3 = some .ycbcr2rgb ∧
  decodeTableWord 8 0x7 = some .xyz2rgb ∧ decodeTableWord 8 0xA = some .rgb2hsv ∧
  decodeTableWord 8 0xC = some .rgb2ycocg ∧ decodeTableWord 8 0xE = some .gamma ∧ decodeTableWord 8 0xF = none ∧
  decodeTableWord 32 0x1 = some .start ∧ decodeTableWord 32 0x3 = some .start ∧
  decodeTableWord 32 0xFFFFFFFE = some .clr ∧ decodeTableWord 32 0xFFFFFFFC = none ∧
  (∀ k : Fin 15, decode (.op4 (BitVec.ofNat 4 k)) = .instr
    ([.gray, .pgray, .rgb2ycbcr, .ycbcr2rgb, .rgb2yuv, .yuv2rgb, .rgb2xyz, .xyz2rgb, .rgb2hls, .hls2rgb, .rgb2hsv,
      .hsv2rgb, .rgb2ycocg, .ycocg2rgb, .gamma].getD k .start)) ∧
  decode (.op4 15#4) = .rejected .reservedOp

/-- The command word (R71): START by bit 0 whatever bit 1 is, else CLR by bit 1, else no command; bits 31..2 never
matter. -/
def Obligations.CommandWordIsReadByItsTwoBits : Prop :=
  ∀ c : Word,
    (decode (.ctrl c) = .instr .start ↔ c &&& 1#32 = 1#32) ∧
    (decode (.ctrl c) = .instr .clr ↔ c &&& 3#32 = 2#32) ∧
    (decode (.ctrl c) = .rejected .noCommand ↔ c &&& 3#32 = 0#32) ∧
    (∀ d : Word, d &&& 3#32 = c &&& 3#32 → decode (.ctrl d) = decode (.ctrl c))

/-- The pixel word (R46): C1 in bits 7..0, C2 in 15..8, C3 in 23..16, Alpha in 31..24; pack and unpack are inverse. -/
def Obligations.PixelWordLayout : Prop :=
  (∀ w : Word, unpack w = ⟨w.extractLsb' 0 8, w.extractLsb' 8 8, w.extractLsb' 16 8, w.extractLsb' 24 8⟩) ∧
  (∀ p : Pixel, pack p = p.a ++ p.c3 ++ p.c2 ++ p.c1) ∧
  (∀ w : Word, pack (unpack w) = w) ∧
  (∀ p : Pixel, unpack (pack p) = p)

/-- The byte view of a memory (R47): the byte at `4i + k` is bits 8k+7..8k of word `i`, and replacing that one byte
changes that channel of that pixel and nothing else. No move of R190 does the latter (log entry 18). -/
def Obligations.ByteViewIsLittleEndian : Prop :=
  ∀ (m : Mem) (i k n : Nat) (w : Word) (b : Byte), k < 4 →
    memByte (memWriteWord m i w) (4 * i + k) = some (w.extractLsb' (8 * k) 8) ∧
    (∀ j, j < 4 → (memWord (memSetByte (memWriteWord m i w) (4 * i + k) b) i n).extractLsb' (8 * j) 8 =
      if j = k then b else w.extractLsb' (8 * j) 8) ∧
    (∀ a, a ≠ 4 * i + k → memByte (memSetByte (memWriteWord m i w) (4 * i + k) b) a = memByte (memWriteWord m i w) a)

/-! ### The quantiser -/

/-- The three equalities of R91: truncation and clamping commute; clamping to [0,1] before scaling by 255 changes
nothing; on a quotient of integers the quantiser is the clamped truncating division. -/
def Obligations.QuantiserEqualities : Prop :=
  (∀ q : ℚ, ((clamp 0 255 (trunc q) : Int) : ℚ) = (trunc (clampQ 0 255 q) : ℚ)) ∧
  (∀ v : ℚ, quantise (255 * clampQ 0 1 v) = quantise (255 * v)) ∧
  (∀ a b : Int, 0 < b →
    quantise ((a : ℚ) / (b : ℚ)) = quantDiv a b ∧
    ((quantDiv a b).toNat : Int) = clamp 0 255 (Int.tdiv a b) ∧
    (0 ≤ a → ((quantDiv a b).toNat : Int) = min 255 (a / b)))

/-! ### Steps and instructions -/

/-- The engine's turn runs the transform that OP decodes to, whether the turn is listed or no turn is left. That no turn
left means the engine's turn is the model's choice (log entry 1). -/
def Obligations.EngineStepRunsTheDecodedTransform : Prop :=
  ∀ (s : State) (i : Instr), s.pixelEnabled = true → decode (.op4 s.op) = .instr i →
    (s.turns = [] → step s = exec i s) ∧
    (∀ rest, s.turns = .engine :: rest → step s = exec i { s with turns := rest })

/-- A step takes the turn at the head of the list; a write to CTRL runs the command its word decodes to, and a word
without a command does nothing (R25, R71, R190). The list of turns is the model's choice (log entry 1). -/
def Obligations.ControlWriteRunsTheDecodedCommand : Prop :=
  (∀ (s : State) (m : HostMove) (rest : List Turn), s.turns = .host m :: rest →
    step s = hostMove m { s with turns := rest }) ∧
  (∀ (s : State) (rest : List Turn), s.turns = .reset :: rest → step s = .next { s with turns := rest }.resetEvent) ∧
  ∀ (s : State) (v : Word) (rest : List Turn), s.turns = .host (.writeReg 0#3 v) :: rest →
    (∀ i, decode (.ctrl v) = .instr i → step s = exec i { s with turns := rest }) ∧
    (∀ r, decode (.ctrl v) = .rejected r → step s = .next { s with turns := rest })

/-- The host's table word runs at the very next step: the placing is the model's choice (log entries 2 and 3). -/
def Obligations.PlacedWordRunsNext : Prop :=
  ∀ (s : State) (nbits w : Nat) (i : Instr), decodeTableWord nbits w = some i →
    step (s.withFetchWord nbits w) = exec i { s.withFetchWord nbits w with turns := s.turns }

/-- Which engine step is enabled (R85): the two conditions; exactly one of them while BUSY = 1 in a state that keeps the
invariant; neither when BUSY = 0, and then the engine does nothing. -/
def Obligations.OneEngineStepIsEnabledWhileBusy : Prop :=
  ∀ s : State,
    (s.pixelEnabled = true ↔ s.busy = true ∧ 0 < s.width.toNat ∧ s.scany.toNat < s.height.toNat) ∧
    (s.finishEnabled = true ↔ s.busy = true ∧ (s.width.toNat = 0 ∨ s.scany = s.height)) ∧
    (s.Inv → s.busy = true → s.pixelEnabled = !s.finishEnabled) ∧
    (s.busy = false → s.pixelEnabled = false ∧ s.finishEnabled = false ∧ engineTurn s = .next s)

/-- The finish step (R87): BUSY cleared, DONE set, and ERR, ERRCODE, the scan position, the configuration and both
memories unchanged; after it the engine is idle; for an empty raster it is the only step of the run and no memory word
is touched. -/
def Obligations.FinishStepEndsTheRun : Prop :=
  (∀ s : State, s.finishEnabled = true → ∃ t, engineTurn s = .next t ∧
    t.busy = false ∧ t.done = true ∧ t.err = s.err ∧ (s.Inv → t.err = false ∧ t.errcode = 0#2) ∧
    t.errcode = s.errcode ∧ t.scanx = s.scanx ∧ t.scany = s.scany ∧
    t.op = s.op ∧ t.width = s.width ∧ t.height = s.height ∧ t.pin = s.pin ∧ t.pout = s.pout ∧
    t.imem = s.imem ∧ t.omem = s.omem ∧ t.config = s.config ∧ engineTurn t = .next t) ∧
  (∀ s : State, s.busy = false → s.op ≠ 15#4 → s.rasterSize = 0 →
    ∃ t u, exec .start s = .next t ∧ engineTurn t = .next u ∧ u.busy = false ∧ u.done = true ∧
      u.imem = s.imem ∧ u.omem = s.omem)

/-! ### The fifteen transforms: each has its code, its integer form is the rule's formula over the rationals, and its
pixel step completes with that formula and leaves all else -/

/-- GRAY (R110). -/
def Obligations.GrayStoresTheLuma : Prop :=
  decode (.op4 0#4) = .instr .gray ∧ (∀ c : Colour, grayColour c = grayFormula c) ∧
  ∀ s : State, s.pixelReady → ∃ t, exec .gray s = .next t ∧ PixelStepResult grayFormula s t

/-- PGRAY (R111, R112): the level in all three channels is the sRGB curve of the linear luminance, scaled by 255 and
quantised. -/
def Obligations.PgrayStoresTheEncodedLuminance : Prop :=
  decode (.op4 1#4) = .instr .pgray ∧
  ∀ s : State, s.pixelReady → ∃ t, exec .pgray s = .next t ∧ PixelStepResult pgrayColour s t ∧
    t.pout.c2 = t.pout.c1 ∧ t.pout.c3 = t.pout.c1 ∧
    (∀ y : ℝ, IsSrgbCurve (2126 / 10000 * ((t.pin.c1.toNat : ℝ) / 255) + 7152 / 10000 * ((t.pin.c2.toNat : ℝ) / 255) +
        722 / 10000 * ((t.pin.c3.toNat : ℝ) / 255)) y → IsQuantised (255 * y) t.pout.c1)

/-- RGB2YCBCR (R120). -/
def Obligations.Rgb2ycbcrStoresItsFormula : Prop :=
  decode (.op4 2#4) = .instr .rgb2ycbcr ∧ (∀ c : Colour, rgb2ycbcrColour c = rgb2ycbcrFormula c) ∧
  ∀ s : State, s.pixelReady → ∃ t, exec .rgb2ycbcr s = .next t ∧ PixelStepResult rgb2ycbcrFormula s t

/-- YCBCR2RGB (R121). -/
def Obligations.Ycbcr2rgbStoresItsFormula : Prop :=
  decode (.op4 3#4) = .instr .ycbcr2rgb ∧ (∀ c : Colour, ycbcr2rgbColour c = ycbcr2rgbFormula c) ∧
  ∀ s : State, s.pixelReady → ∃ t, exec .ycbcr2rgb s = .next t ∧ PixelStepResult ycbcr2rgbFormula s t

/-- RGB2YUV (R122). -/
def Obligations.Rgb2yuvStoresItsFormula : Prop :=
  decode (.op4 4#4) = .instr .rgb2yuv ∧ (∀ c : Colour, rgb2yuvColour c = rgb2yuvFormula c) ∧
  ∀ s : State, s.pixelReady → ∃ t, exec .rgb2yuv s = .next t ∧ PixelStepResult rgb2yuvFormula s t

/-- YUV2RGB (R123). -/
def Obligations.Yuv2rgbStoresItsFormula : Prop :=
  decode (.op4 5#4) = .instr .yuv2rgb ∧ (∀ c : Colour, yuv2rgbColour c = yuv2rgbFormula c) ∧
  ∀ s : State, s.pixelReady → ∃ t, exec .yuv2rgb s = .next t ∧ PixelStepResult yuv2rgbFormula s t

/-- RGB2XYZ with any matrix (R138), a row over a common denominator (log entry 4). -/
def Obligations.Rgb2xyzStoresTheForwardMatrix : Prop :=
  decode (.op4 6#4) = .instr .rgb2xyz ∧
  (∀ (cfg : Config) (c : Colour), cfg.wf → rgb2xyzColour cfg c = matrixFormula cfg.xyzFwd c) ∧
  ∀ s : State, s.config.wf → s.pixelReady →
    ∃ t, exec .rgb2xyz s = .next t ∧ PixelStepResult (matrixFormula s.config.xyzFwd) s t

/-- XYZ2RGB with any matrix (R139), a row over a common denominator (log entry 4). -/
def Obligations.Xyz2rgbStoresTheInverseMatrix : Prop :=
  decode (.op4 7#4) = .instr .xyz2rgb ∧
  (∀ (cfg : Config) (c : Colour), cfg.wf → xyz2rgbColour cfg c = matrixFormula cfg.xyzInv c) ∧
  ∀ s : State, s.config.wf → s.pixelReady →
    ∃ t, exec .xyz2rgb s = .next t ∧ PixelStepResult (matrixFormula s.config.xyzInv) s t

/-- RGB2HLS (R148). -/
def Obligations.Rgb2hlsStoresItsFormula : Prop :=
  decode (.op4 8#4) = .instr .rgb2hls ∧ (∀ c : Colour, rgb2hlsColour c = rgb2hlsFormula c) ∧
  ∀ s : State, s.pixelReady → ∃ t, exec .rgb2hls s = .next t ∧ PixelStepResult rgb2hlsFormula s t

/-- HLS2RGB (R150). -/
def Obligations.Hls2rgbStoresItsFormula : Prop :=
  decode (.op4 9#4) = .instr .hls2rgb ∧ (∀ c : Colour, hls2rgbColour c = hls2rgbFormula c) ∧
  ∀ s : State, s.pixelReady → ∃ t, exec .hls2rgb s = .next t ∧ PixelStepResult hls2rgbFormula s t

/-- RGB2HSV (R151). -/
def Obligations.Rgb2hsvStoresItsFormula : Prop :=
  decode (.op4 10#4) = .instr .rgb2hsv ∧ (∀ c : Colour, rgb2hsvColour c = rgb2hsvFormula c) ∧
  ∀ s : State, s.pixelReady → ∃ t, exec .rgb2hsv s = .next t ∧ PixelStepResult rgb2hsvFormula s t

/-- HSV2RGB (R152). -/
def Obligations.Hsv2rgbStoresItsFormula : Prop :=
  decode (.op4 11#4) = .instr .hsv2rgb ∧ (∀ c : Colour, hsv2rgbColour c = hsv2rgbFormula c) ∧
  ∀ s : State, s.pixelReady → ∃ t, exec .hsv2rgb s = .next t ∧ PixelStepResult hsv2rgbFormula s t

/-- RGB2YCOCG (R170). -/
def Obligations.Rgb2ycocgStoresItsFormula : Prop :=
  decode (.op4 12#4) = .instr .rgb2ycocg ∧ (∀ c : Colour, rgb2ycocgColour c = rgb2ycocgFormula c) ∧
  ∀ s : State, s.pixelReady → ∃ t, exec .rgb2ycocg s = .next t ∧ PixelStepResult rgb2ycocgFormula s t

/-- YCOCG2RGB (R171). -/
def Obligations.Ycocg2rgbStoresItsFormula : Prop :=
  decode (.op4 13#4) = .instr .ycocg2rgb ∧ (∀ c : Colour, ycocg2rgbColour c = ycocg2rgbFormula c) ∧
  ∀ s : State, s.pixelReady → ∃ t, exec .ycocg2rgb s = .next t ∧ PixelStepResult ycocg2rgbFormula s t

/-- GAMMA (R180, R181): each channel on its own is the BT.709-style curve of the normalised channel, scaled by 255 and
quantised. -/
def Obligations.GammaStoresTheCurveOfEachChannel : Prop :=
  decode (.op4 14#4) = .instr .gamma ∧
  ∀ s : State, s.pixelReady → ∃ t, exec .gamma s = .next t ∧ PixelStepResult gammaColour s t ∧
    (∀ y : ℝ, IsBt709Curve ((t.pin.c1.toNat : ℝ) / 255) y → IsQuantised (255 * y) t.pout.c1) ∧
    (∀ y : ℝ, IsBt709Curve ((t.pin.c2.toNat : ℝ) / 255) y → IsQuantised (255 * y) t.pout.c2) ∧
    (∀ y : ℝ, IsBt709Curve ((t.pin.c3.toNat : ℝ) / 255) y → IsQuantised (255 * y) t.pout.c3)

/-- Every entry of GAMMA_LUT is `floor(255 * oetf709(C / 255))` (R182). -/
def Obligations.GammaTableIsTheCurve : Prop :=
  ∀ (c : Nat) (y : ℝ), c < 256 → IsBt709Curve ((c : ℝ) / 255) y →
    ((gammaLut.getD c 0 : Nat) : Int) = ⌊255 * y⌋

/-- The thresholds (R113): entry `k` is the least numerator whose scaled curve reaches `k`, and counting the thresholds
at or below `N` gives the truncated curve. -/
def Obligations.PgrayThresholdsAreTheCurve : Prop :=
  (∀ (k : Nat), 1 ≤ k → k ≤ 255 →
    pgrayThr.getD (k - 1) 0 ≤ 2550000 ∧
    ∀ (n : Nat) (y : ℝ), n ≤ 2550000 → IsSrgbCurve ((n : ℝ) / 2550000) y →
      ((k : ℝ) ≤ 255 * y ↔ pgrayThr.getD (k - 1) 0 ≤ n)) ∧
  (∀ (n : Nat) (y : ℝ), n ≤ 2550000 → IsSrgbCurve ((n : ℝ) / 2550000) y →
    ((pgrayLevel n : Nat) : Int) = ⌊255 * y⌋)

/-- Alpha passthrough (R89): the alpha of the output word is the alpha of the input word, for every operation code, at
every pixel step; and so is the alpha of the stored word, unless a racing host write remains in its place (R61). -/
def Obligations.AlphaIsCopiedByEveryPixelStep : Prop :=
  ∀ s t : State, s.pixelEnabled = true → engineTurn s = .next t →
    (pack t.pout).extractLsb' 24 8 = (s.fetchWord s.scanIndex).extractLsb' 24 8 ∧
    (s.scanIndex ∉ s.race.kept →
      ∀ n, (memWord t.omem s.scanIndex n).extractLsb' 24 8 = (s.fetchWord s.scanIndex).extractLsb' 24 8)

/-- Purity (R99): the same opcode and the same three input bytes give the same three output bytes, in whatever states
the two pixel steps are taken. -/
def Obligations.TransformsArePure : Prop :=
  ∀ (i : Instr) (s s' t t' : State), i ≠ .start → i ≠ .clr → s.config = s'.config → s.pixelReady → s'.pixelReady →
    exec i s = .next t → exec i s' = .next t' → t.pin.colour = t'.pin.colour → t.pout.colour = t'.pout.colour

/-- Where a transform takes no pixel step: where none is enabled nothing happens; an index outside the memory and the
reserved code in a run stop with their named faults. No state that keeps the invariant is of the last two kinds (R52,
R98). The three outcomes are the model's choice (log entries 11 and 13). -/
def Obligations.TransformsOutsideTheirStep : Prop :=
  (∀ (i : Instr) (s : State), i ≠ .start → i ≠ .clr → s.pixelEnabled = false → exec i s = .next s) ∧
  (∀ (i : Instr) (s : State), i ≠ .start → i ≠ .clr → s.pixelEnabled = true → s.config.memPixels ≤ s.scanIndex →
    exec i s = .fault .engineIndexOutOfRange) ∧
  (∀ s : State, s.pixelEnabled = true → s.op = 15#4 → engineTurn s = .fault .reservedCodeInRun) ∧
  (∀ s : State, s.Inv → s.pixelEnabled = true → s.op ≠ 15#4 ∧ s.scanIndex < s.config.memPixels)

/-! ### Commands -/

/-- START with BUSY = 1 is ignored; with BUSY = 0, a code 0..14 and a raster that fits, the run begins: STATUS is BUSY
alone, ERRCODE 0, the scan position the origin, and nothing else has changed (R193). -/
def Obligations.StartBeginsARun : Prop :=
  (∀ s : State, s.busy = true → exec .start s = .next s) ∧
  (∀ s : State, s.busy = false → s.op ≠ 15#4 → s.rasterSize ≤ s.config.memPixels →
    ∃ t, exec .start s = .next t ∧ t.status = 1#3 ∧ t.errcode = 0#2 ∧ t.scanx = 0#16 ∧ t.scany = 0#16 ∧
      SameBesideReport s t)

/-- The error entry (R211) and the order of the checks (R210): the BUSY test first, then the reserved code, then the
size; a refused START sets ERR and the cause, clears DONE, and changes nothing else. -/
def Obligations.RefusedStartReportsOneError : Prop :=
  (∀ s : State, s.busy = true → exec .start s = .next s) ∧
  (∀ s : State, s.busy = false → s.op = 15#4 →
    ∃ t, exec .start s = .next t ∧ t.status = 4#3 ∧ t.errcode = 1#2 ∧ t.scanx = s.scanx ∧ t.scany = s.scany ∧
      SameBesideReport s t) ∧
  (∀ s : State, s.busy = false → s.op ≠ 15#4 → s.config.memPixels < s.rasterSize →
    ∃ t, exec .start s = .next t ∧ t.status = 4#3 ∧ t.errcode = 2#2 ∧ t.scanx = s.scanx ∧ t.scany = s.scany ∧
      SameBesideReport s t)

/-- CLR (R194): the command word with bit 1 set and bit 0 clear; ignored while BUSY = 1; otherwise the report is cleared
and nothing else changes. -/
def Obligations.ClrClearsTheReport : Prop :=
  (∀ v : Word, decode (.ctrl v) = .instr .clr ↔ v.getLsbD 0 = false ∧ v.getLsbD 1 = true) ∧
  encode .clr = .ctrl 2#32 ∧
  (∀ s : State, s.busy = true → exec .clr s = .next s) ∧
  (∀ s : State, s.busy = false →
    ∃ t, exec .clr s = .next t ∧ t.status = 0#3 ∧ t.errcode = 0#2 ∧ t.scanx = s.scanx ∧ t.scany = s.scany ∧
      t.race = s.race ∧ SameBesideReport s t)

/-! ### Register and memory moves -/

/-- The register write (R191): ignored while BUSY = 1; a command at index 0; the low bits stored at indices 1 to 3;
nothing at the read-only indices 4 to 7. -/
def Obligations.RegisterWriteRule : Prop :=
  ∀ (s : State) (idx : BitVec 3) (v : Word),
    (s.busy = true → hostMove (.writeReg idx v) s = .next s) ∧
    (s.busy = false →
      (idx = 0#3 → v.getLsbD 0 = true → hostMove (.writeReg idx v) s = exec .start s) ∧
      (idx = 0#3 → v.getLsbD 0 = false → v.getLsbD 1 = true → hostMove (.writeReg idx v) s = exec .clr s) ∧
      (idx = 0#3 → v.getLsbD 0 = false → v.getLsbD 1 = false → hostMove (.writeReg idx v) s = .next s) ∧
      (idx = 1#3 → hostMove (.writeReg idx v) s = .next { s with op := v.extractLsb' 0 4 }) ∧
      (idx = 2#3 → hostMove (.writeReg idx v) s = .next { s with width := v.extractLsb' 0 16 }) ∧
      (idx = 3#3 → hostMove (.writeReg idx v) s = .next { s with height := v.extractLsb' 0 16 }) ∧
      (4 ≤ idx.toNat → hostMove (.writeReg idx v) s = .next s))

/-- The register read (R192): it returns the register's bits zero-extended, at any time, and changes no state of the
machine. That the host keeps what it read in a list is the model's choice (log entry 17). -/
def Obligations.RegisterReadRule : Prop :=
  ∀ (s : State) (idx : BitVec 3),
    ∃ v : Word, hostMove (.readReg idx) s = .next { s with replies := v :: s.replies } ∧
      (idx = 0#3 → v = 0#32) ∧ (idx = 1#3 → v.toNat = s.op.toNat) ∧ (idx = 2#3 → v.toNat = s.width.toNat) ∧
      (idx = 3#3 → v.toNat = s.height.toNat) ∧
      (idx = 4#3 → v.toNat = s.busy.toNat + 2 * s.done.toNat + 4 * s.err.toNat) ∧
      (idx = 5#3 → v.toNat = s.errcode.toNat) ∧ (idx = 6#3 → v.toNat = s.scanx.toNat) ∧
      (idx = 7#3 → v.toNat = s.scany.toNat)

/-- Host access to IMEM (R196): a write replaces one word and nothing else of the machine; a read of a written word
returns it and changes nothing; a read of any word adds one reply, in which a byte nobody has written is free (R60), and
changes no register and no memory; an index at or above `MEM_PIXELS` is refused (U4). The list of turns, the replies,
the draw of a free byte and the refusal are the model's choice (log entries 1, 5, 14 and 17). -/
def Obligations.HostAccessToImem : Prop :=
  ∀ (s : State) (i : Nat) (rest : List Turn),
    (∀ w, s.turns = .host (.writeMem .imem i w) :: rest → i < s.config.memPixels →
      ∃ t, step s = .next t ∧ (∀ n, memWord t.imem i n = w) ∧
        (∀ a, ¬ inWord i a → memByte t.imem a = memByte s.imem a) ∧ t.omem = s.omem ∧ t.turns = rest ∧
        t.replies = s.replies ∧ SameRegisters s t) ∧
    (s.turns = .host (.readMem .imem i) :: rest → i < s.config.memPixels → memWritten s.imem i = true →
      ∀ n, step s = .next { s with turns := rest, replies := memWord s.imem i n :: s.replies }) ∧
    (s.turns = .host (.readMem .imem i) :: rest → i < s.config.memPixels →
      ∃ t n, step s = .next t ∧ t.replies = memWord s.imem i n :: s.replies ∧ t.imem = s.imem ∧ t.omem = s.omem ∧
        t.race = s.race ∧ t.turns = rest ∧ SameRegisters s t) ∧
    (∀ w, s.turns = .host (.writeMem .imem i w) :: rest → s.config.memPixels ≤ i →
      step s = .refused .hostIndexOutOfRange) ∧
    (s.turns = .host (.readMem .imem i) :: rest → s.config.memPixels ≤ i →
      step s = .refused .hostIndexOutOfRange)

/-- Host access to OMEM at a word that no run in progress is about to write or has written (R197): as the access to IMEM.
The list of turns, the replies, the draw of a free byte and the refusal are the model's choice (log entries 1, 5, 14 and
17). -/
def Obligations.HostAccessToOmem : Prop :=
  ∀ (s : State) (i : Nat) (rest : List Turn), s.inRun i = false →
    (∀ w, s.turns = .host (.writeMem .omem i w) :: rest → i < s.config.memPixels →
      ∃ t, step s = .next t ∧ (∀ n, memWord t.omem i n = w) ∧
        (∀ a, ¬ inWord i a → memByte t.omem a = memByte s.omem a) ∧ t.imem = s.imem ∧ t.turns = rest ∧
        t.replies = s.replies ∧ SameRegisters s t) ∧
    (s.turns = .host (.readMem .omem i) :: rest → i < s.config.memPixels → memWritten s.omem i = true →
      ∀ n, step s = .next { s with turns := rest, replies := memWord s.omem i n :: s.replies }) ∧
    (s.turns = .host (.readMem .omem i) :: rest → i < s.config.memPixels →
      ∃ t n, step s = .next t ∧ t.replies = memWord s.omem i n :: s.replies ∧ t.imem = s.imem ∧ t.omem = s.omem ∧
        t.race = s.race ∧ t.turns = rest ∧ SameRegisters s t) ∧
    (∀ w, s.turns = .host (.writeMem .omem i w) :: rest → s.config.memPixels ≤ i →
      step s = .refused .hostIndexOutOfRange) ∧
    (s.turns = .host (.readMem .omem i) :: rest → s.config.memPixels ≤ i →
      step s = .refused .hostIndexOutOfRange)

/-- The engine's index exists in every state that keeps the invariant, and a host access beyond the memory is refused
(R52, log entry 14). -/
def Obligations.IndicesStayInTheMemory : Prop :=
  (∀ s : State, s.Inv → s.pixelEnabled = true → s.scanIndex < s.config.memPixels) ∧
  (∀ (s : State) (m : HostMove), m.wf s.config.memPixels = false → hostMove m s = .refused .hostIndexOutOfRange)

/-- A host access that races with a run has one of the two outcomes of R61, for every word of the run, and touches
nothing but that word. After a write of an IMEM word ahead of the scan position the engine will read the word it holds,
or the old word, or the new one. A read of an OMEM word returns the word from before the run or the transformed pixel,
and ahead of the scan position the engine then holds the word it has transformed. A write of an OMEM word ahead of the
scan position, and then the engine's store, leave one of the two; a write of a word that the engine has stored leaves
itself or the engine's word, whatever the host wrote there before. The free coin that takes an outcome and the record of
races are the model's (log entries 9 and 10). -/
def Obligations.RacingAccessHasOneOfItsOutcomes : Prop :=
  (∀ (s : State) (i : Nat) (w : Word), s.ahead i = true → i < s.config.memPixels →
    ∃ t, hostMove (.writeMem .imem i w) s = .next t ∧
      (∀ x, staleWord s.race.stale i = some x → t.fetchWord i = x) ∧
      (staleWord s.race.stale i = none → s.coin = true → ∃ n, t.fetchWord i = memWord s.imem i n) ∧
      (staleWord s.race.stale i = none → s.coin = false → t.fetchWord i = w) ∧
      (∀ n, memWord t.imem i n = w) ∧ t.omem = s.omem ∧ t.replies = s.replies ∧ SameBesideWord i s t) ∧
  (∀ (s : State) (i : Nat), s.inRun i = true → i < s.config.memPixels →
    ∃ t v, hostMove (.readMem .omem i) s = .next t ∧ t.replies = v :: s.replies ∧
      (s.coin = true → ∃ n, v = memWord s.race.before i n) ∧
      (s.coin = false → s.ahead i = false → ∃ n, v = memWord s.race.stored i n) ∧
      (s.coin = false → s.ahead i = true → ∀ f, runFunction s = some f →
        v = f (t.fetchWord i) ∧ staleWord t.race.stale i = some (t.fetchWord i) ∧
        (staleWord s.race.stale i = some (t.fetchWord i) ∨
          staleWord s.race.stale i = none ∧ ∃ n, t.fetchWord i = memWord s.imem i n)) ∧
      t.imem = s.imem ∧ t.omem = s.omem ∧ SameBesideWord i s t) ∧
  (∀ (s : State) (i : Nat) (w : Word), s.inRun i = true → i < s.config.memPixels →
    ∃ t, hostMove (.writeMem .omem i w) s = .next t ∧
      (s.ahead i = true → (∀ n, memWord t.omem i n = w) ∧
        ∀ (u : State) (x : Word) (n : Nat), (∀ a, inWord i a → memByte u.omem a = memByte t.omem a) →
          (i ∈ u.race.kept ↔ i ∈ t.race.kept) →
          memWord (u.storeOmem i x) i n = if s.coin = true then w else x) ∧
      (s.ahead i = false → s.coin = true → ∀ n, memWord t.omem i n = w) ∧
      (s.ahead i = false → s.coin = false → memWritten s.race.stored i = true →
        ∀ n k, memWord t.omem i n = memWord s.race.stored i k) ∧
      (∀ n, memWord t.race.before i n = w) ∧ t.imem = s.imem ∧ t.replies = s.replies ∧ SameBesideWord i s t)

/-! ### Reset -/

/-- The reset event in any state (R235): every control register 0, the engine idle, no word of either memory carried
across or given a value (log entry 7), the parameters kept. -/
def Obligations.ResetEventClearsTheRegisters : Prop :=
  ∀ (s : State) (rest : List Turn), s.turns = .reset :: rest →
    ∃ t, step s = .next t ∧ t.op = 0#4 ∧ t.width = 0#16 ∧ t.height = 0#16 ∧ t.busy = false ∧ t.done = false ∧
      t.err = false ∧ t.errcode = 0#2 ∧ t.scanx = 0#16 ∧ t.scany = 0#16 ∧
      (∀ i, memByte t.imem i = none ∧ memByte t.omem i = none) ∧ t.config = s.config ∧ t.turns = rest

/-- After reset (R236): the engine does nothing, every register reads 0, and a START is accepted, successful and
finished by one step with STATUS = 2. -/
def Obligations.StartRightAfterResetCompletes : Prop :=
  engineTurn State.reset = .next State.reset ∧
  (∀ idx : BitVec 3, readReg (decodeReg idx) State.reset = 0#32) ∧
  ∃ t u, exec .start State.reset = .next t ∧ t.status = 1#3 ∧ engineTurn t = .next u ∧ u.status = 2#3

/-! ### Invariants and whole-machine rules -/

/-- The invariant holds right after reset (R37, R40). Its clauses on the record of races are the model's (log entry 10). -/
def Obligations.ResetKeepsTheInvariant : Prop := State.reset.Inv

/-- Every step keeps the invariant (R40 (a) to (c), R29 to R32, and the memories' canonical form). Its clauses on
the record of races, in which every word behind the scan position is stored, are the model's (log entry 10). -/
def Obligations.EveryStepKeepsTheInvariant : Prop :=
  ∀ s t : State, s.Inv → step s = .next t → t.Inv

/-- In a state that keeps the invariant every legal turn completes: no fault and no refusal (R97, R201, R214). -/
def Obligations.LegalTurnsAlwaysComplete : Prop :=
  ∀ s : State, s.Inv → (∀ u ∈ s.turns, u.wf s.config.memPixels = true) → ∃ t, step s = .next t

/-- IMEM is changed by a host write and by reset only; the engine never writes it (R35, R40 (e)). -/
def Obligations.OnlyTheHostWritesImem : Prop :=
  ∀ s t : State, step s = .next t → t.imem ≠ s.imem →
    (∃ i w rest, s.turns = .host (.writeMem .imem i w) :: rest) ∨ (∃ rest, s.turns = .reset :: rest)

/-- STATUS is written only by START, CLR, the finish step, the error entry of a START, and reset (R23). -/
def Obligations.OnlyTheseEventsWriteStatus : Prop :=
  ∀ s t : State, step s = .next t → t.status ≠ s.status →
    (s.finishEnabled = true ∧ (s.turns = [] ∨ ∃ rest, s.turns = .engine :: rest)) ∨
    (s.busy = false ∧ ∃ v i rest, s.turns = .host (.writeReg 0#3 v) :: rest ∧ decode (.ctrl v) = .instr i) ∨
    (∃ rest, s.turns = .reset :: rest)

/-- While BUSY = 1 no turn but a reset changes OP, WIDTH or HEIGHT, and no turn but a reset or the finish step ends the
run; the parameters never change (R33, R194, R220; log entries 1 and 4). -/
def Obligations.RunKeepsItsConfiguration : Prop :=
  ∀ s t : State, step s = .next t →
    t.config = s.config ∧
    (s.busy = true → (∀ rest, s.turns ≠ .reset :: rest) →
      t.op = s.op ∧ t.width = s.width ∧ t.height = s.height ∧
      (t.busy = false → s.finishEnabled = true ∧ (s.turns = [] ∨ ∃ rest, s.turns = .engine :: rest)))

/-- During a run OMEM follows the scan position (R40 (d)): START makes it so, and every engine step and every turn of a
host that keeps its duties keeps it so until the finish step. The record of OMEM as it was is the model's (log
entry 10). -/
def Obligations.OmemFollowsTheScan : Prop :=
  (∀ (s t : State) (f : Word → Word), s.busy = false → exec .start s = .next t → t.busy = true →
    runFunction t = some f → t.behindScan f ∧ t.race.stale = [] ∧ t.race.kept = []) ∧
  (∀ (s t : State) (f : Word → Word), s.Inv → s.busy = true → s.race.stale = [] → s.race.kept = [] → s.filled →
    runFunction s = some f → s.behindScan f →
    (s.turns = [] ∨ ∃ u rest, s.turns = u :: rest ∧ turnKeepsDuties s.config.memPixels u = true) →
    step s = .next t → t.busy = true →
    t.behindScan f ∧ t.race.stale = [] ∧ t.race.kept = [] ∧ runFunction t = some f ∧ t.filled)

/-- A whole run (R248): from an idle state with IMEM filled for the raster, a START that is accepted and successful is
followed by exactly W*H pixel steps and one finish step, and leaves the transform of every input word in OMEM and all
else as it was. That the engine has the turn when none is listed is the model's choice (log entry 1). -/
def Obligations.RunTransformsTheWholeRaster : Prop :=
  ∀ (s : State) (f : Word → Word), s.turns = [.host (.writeReg 0#3 1#32)] → s.busy = false →
    s.rasterSize ≤ s.config.memPixels → s.filled → runFunction s = some f →
    ∃ t, Host.Core.run Sys2Proof.core (s.rasterSize + 2) s = .next t ∧ RunResult f s t ∧ t.turns = []

/-- The normal sequence of one conversion (R199), in the notation of R77 and R78: FILL, SETUP and START, then the
engine. That the engine has the turn when none is listed is the model's choice (log entry 1). -/
def Obligations.NormalSequenceConvertsTheRaster : Prop :=
  ∀ (s : State) (op : BitVec 4) (w h : Half) (ps : List Word) (i : Instr) (T : Colour → Colour),
    s.busy = false → ps.length = w.toNat * h.toNat → ps.length ≤ s.config.memPixels →
    decode (.op4 op) = .instr i → transformOf s.config i = some T →
    s.turns = fillTurns ps ++ setupTurns op w h ++ [startTurn] →
    ∃ t, Host.Core.run Sys2Proof.core (ps.length + 4 + (ps.length + 1)) s = .next t ∧
      t.status = 2#3 ∧ t.errcode = 0#2 ∧ t.op = op ∧ t.width = w ∧ t.height = h ∧
      t.scanx = 0#16 ∧ t.scany = (if w = 0#16 then 0#16 else h) ∧ t.turns = [] ∧ t.config = s.config ∧
      (∀ j n, j < ps.length → memWord t.omem j n = pixelFunction T (ps.getD j 0#32) ∧
        memWord t.imem j n = ps.getD j 0#32) ∧
      (∀ a, 4 * ps.length ≤ a → memByte t.omem a = memByte s.omem a ∧ memByte t.imem a = memByte s.imem a)

/-- A run beside a host that keeps its duties (R242): whatever register accesses and IMEM reads come between the engine's
steps, the run ends as the single assignment `OMEM[i] <- F(IMEM[i])` for every index of the raster. -/
def Obligations.RunIsUndisturbedByADutifulHost : Prop :=
  ∀ (s : State) (f : Word → Word) (us : List Turn), s.Inv → s.busy = true → s.scanx = 0#16 → s.scany = 0#16 →
    s.race.stale = [] → s.race.kept = [] → s.filled → runFunction s = some f →
    s.turns = us ++ [.engine] → (∀ u ∈ us, turnKeepsDuties s.config.memPixels u = true) →
    us.count .engine = s.rasterSize →
    ∃ t, Host.Core.run Sys2Proof.core (us.length + 1) s = .next t ∧ RunResult f s t ∧ t.turns = []

/-! ### Properties of the transforms -/

/-- Both grayscale transforms give an achromatic pixel, and GRAY changes no output of GRAY or of PGRAY (R117). -/
def Obligations.GrayOfGrayIsUnchanged : Prop :=
  ∀ c : Colour,
    (grayColour c).c1 = (grayColour c).c2 ∧ (grayColour c).c2 = (grayColour c).c3 ∧
    (pgrayColour c).c1 = (pgrayColour c).c2 ∧ (pgrayColour c).c2 = (pgrayColour c).c3 ∧
    grayColour (grayColour c) = grayColour c ∧ grayColour (pgrayColour c) = pgrayColour c

/-- The stored ranges of RGB2YCBCR (R124), and what it makes of a gray. -/
def Obligations.YcbcrStaysInItsDigitalRange : Prop :=
  ∀ c : Colour,
    16 ≤ (rgb2ycbcrColour c).c1.toNat ∧ (rgb2ycbcrColour c).c1.toNat ≤ 235 ∧
    16 ≤ (rgb2ycbcrColour c).c2.toNat ∧ (rgb2ycbcrColour c).c2.toNat ≤ 239 ∧
    16 ≤ (rgb2ycbcrColour c).c3.toNat ∧ (rgb2ycbcrColour c).c3.toNat ≤ 239 ∧
    (c.c1 = c.c2 → c.c2 = c.c3 → (rgb2ycbcrColour c).c2 = 128#8 ∧ (rgb2ycbcrColour c).c3 = 128#8)

/-- RGB2YCBCR then YCBCR2RGB comes back within 4 in every channel, and 4 is reached (R126). -/
def Obligations.YcbcrRoundTripIsWithinFour : Prop :=
  (∀ c : Colour,
    |chan (ycbcr2rgbColour (rgb2ycbcrColour c)).c1 - chan c.c1| ≤ 4 ∧
    |chan (ycbcr2rgbColour (rgb2ycbcrColour c)).c2 - chan c.c2| ≤ 4 ∧
    |chan (ycbcr2rgbColour (rgb2ycbcrColour c)).c3 - chan c.c3| ≤ 4) ∧
  ycbcr2rgbColour (rgb2ycbcrColour ⟨0#8, 0#8, 91#8⟩) = ⟨0#8, 0#8, 87#8⟩

/-- The corner cases of the two hue decoders (R157): S = 0 gives a gray, L = 0 and L = 1 give black and white, V = 0
gives black, a hue byte of 255 behaves as 0, the sector boundaries in terms of C1, and where the fraction is 0. -/
def Obligations.HueDecoderCornerCases : Prop :=
  (∀ h l : Byte, hls2rgbColour ⟨h, l, 0#8⟩ = ⟨l, l, l⟩) ∧
  (∀ h s : Byte, hls2rgbColour ⟨h, 0#8, s⟩ = ⟨0#8, 0#8, 0#8⟩) ∧
  (∀ h s : Byte, hls2rgbColour ⟨h, 255#8, s⟩ = ⟨255#8, 255#8, 255#8⟩) ∧
  (∀ h v : Byte, hsv2rgbColour ⟨h, 0#8, v⟩ = ⟨v, v, v⟩) ∧
  (∀ h s : Byte, hsv2rgbColour ⟨h, s, 0#8⟩ = ⟨0#8, 0#8, 0#8⟩) ∧
  (∀ s v : Byte, hsv2rgbColour ⟨255#8, s, v⟩ = hsv2rgbColour ⟨0#8, s, v⟩) ∧
  (∀ c : Nat, c ≤ 254 → sectorOfIndex (6 * c / 255) =
    if c ≤ 42 then .s0 else if c ≤ 84 then .s1 else if c ≤ 127 then .s2 else if c ≤ 169 then .s3
    else if c ≤ 212 then .s4 else .s5) ∧
  (∀ c : Nat, c ≤ 254 → (6 * c - 255 * (6 * c / 255) = 0 ↔ c = 0 ∨ c = 85 ∨ c = 170)) ∧
  hsv2rgbColour ⟨255#8, 255#8, 255#8⟩ = ⟨255#8, 0#8, 0#8⟩

/-- An achromatic pixel has H = 0 and S = 0 in both encodings, without a division (R153), and both round trips give
every gray back exactly (R158). -/
def Obligations.GraysSurviveHlsAndHsv : Prop :=
  ∀ v : Byte,
    rgb2hlsColour ⟨v, v, v⟩ = ⟨0#8, v, 0#8⟩ ∧ rgb2hsvColour ⟨v, v, v⟩ = ⟨0#8, 0#8, v⟩ ∧
    hls2rgbColour (rgb2hlsColour ⟨v, v, v⟩) = ⟨v, v, v⟩ ∧ hsv2rgbColour (rgb2hsvColour ⟨v, v, v⟩) = ⟨v, v, v⟩

/-- The stored hue is at most 254, in both encodings (R145, R147, R156). -/
def Obligations.StoredHueIsBelow255 : Prop :=
  ∀ c : Colour, (rgb2hlsColour c).c1.toNat ≤ 254 ∧ (rgb2hsvColour c).c1 = (rgb2hlsColour c).c1

/-- The documented YCoCg mismatch on red (R173), and that grays survive the pair (R172). -/
def Obligations.YcocgPairIsNotAnIdentity : Prop :=
  rgb2ycocgColour ⟨255#8, 0#8, 0#8⟩ = ⟨64#8, 128#8, 0#8⟩ ∧
  ycocg2rgbColour ⟨64#8, 128#8, 0#8⟩ = ⟨192#8, 64#8, 0#8⟩ ∧
  ∀ v : Byte, ycocg2rgbColour (rgb2ycocgColour ⟨v, v, v⟩) = ⟨v, v, v⟩

/-- The shape of the gamma table (R183): non-decreasing, and above the identity but at 0, 254 and 255. -/
def Obligations.GammaTableShape : Prop :=
  gammaLut.length = 256 ∧
  ∀ c : Fin 255, gammaLut.getD c.val 0 ≤ gammaLut.getD (c.val + 1) 0 ∧
    (c.val < gammaLut.getD c.val 0 ∨ c.val = 0 ∨ c.val = 254)
end

