-- ==== Sys2Proof/Laws/Memory.lean ====
section
/-! SUPPORT. The raster memories: read after write, writes elsewhere, the canonical form and the extent (R45 to R51). -/

namespace Sys2Proof.Machine

/-! ### Bytes -/

/-- A read after a write of one byte (R50). -/
theorem memByte_memSetByte (m : Mem) (a b : Nat) (v : Byte) :
    memByte (memSetByte m a v) b = if b = a then some v else memByte m b := by
  induction m with
  | nil => simp [memSetByte, memByte]
  | cons c rest ih =>
    obtain ⟨x, w⟩ := c
    simp only [memSetByte]
    split
    · simp only [memByte]
    · split
      · rename_i hlt heq
        subst heq
        simp only [memByte]
        split <;> rfl
      · rename_i hlt hne
        simp only [memByte, ih]
        split
        · rename_i hbx
          rw [if_neg (fun h => hne (h.symm.trans hbx))]
        · rfl

/-- The addresses of a memory after a byte write are the old ones and the one written. -/
theorem mem_memSetByte {m : Mem} {a : Nat} {v : Byte} {c : Host.Cell} (h : c ∈ memSetByte m a v) :
    c = (a, v) ∨ c ∈ m := by
  induction m with
  | nil => simpa [memSetByte] using h
  | cons x rest ih =>
    obtain ⟨b, w⟩ := x
    simp only [memSetByte] at h
    split at h
    · simpa using h
    · split at h
      · rcases List.mem_cons.mp h with h | h
        · exact .inl h
        · exact .inr (List.mem_cons_of_mem _ h)
      · rcases List.mem_cons.mp h with h | h
        · exact .inr (h ▸ List.mem_cons_self)
        · exact (ih h).imp id (List.mem_cons_of_mem _)

/-- A byte write keeps the canonical form. -/
theorem memSetByte_wf {m : Mem} (a : Nat) (v : Byte) (h : Mem.wf m) : Mem.wf (memSetByte m a v) := by
  induction m with
  | nil => simp [memSetByte]
  | cons x rest ih =>
    obtain ⟨b, w⟩ := x
    have hb := List.pairwise_cons.mp h
    simp only [memSetByte]
    split
    · rename_i hlt
      refine List.pairwise_cons.mpr ⟨fun c hc => ?_, h⟩
      rcases List.mem_cons.mp hc with hc | hc
      · simpa [hc] using hlt
      · exact Nat.lt_trans hlt (hb.1 c hc)
    · split
      · rename_i hlt heq
        subst heq
        exact List.pairwise_cons.mpr ⟨hb.1, hb.2⟩
      · rename_i hlt hne
        refine List.pairwise_cons.mpr ⟨fun c hc => ?_, ih hb.2⟩
        rcases mem_memSetByte hc with hc | hc
        · subst hc; show b < a; omega
        · exact hb.1 c hc

/-- A byte write inside the address space keeps the memory inside it. -/
theorem memSetByte_inRange {m : Mem} {a n : Nat} {v : Byte} (ha : a < 4 * n) (h : Mem.inRange m n) :
    Mem.inRange (memSetByte m a v) n := by
  intro c hc
  rcases mem_memSetByte hc with hc | hc
  · subst hc; exact ha
  · exact h c hc

/-! ### Words -/

/-- The bytes of a memory after a word write: the word's four bytes at its index, all others as before (R45, R47). -/
theorem memByte_memWriteWord (m : Mem) (i b : Nat) (w : Word) :
    memByte (memWriteWord m i w) b =
      if b = 4 * i + 3 then some (wordByte w 3) else if b = 4 * i + 2 then some (wordByte w 2)
      else if b = 4 * i + 1 then some (wordByte w 1) else if b = 4 * i then some (wordByte w 0)
      else memByte m b := by
  simp only [memWriteWord, memByte_memSetByte, byteAddr, Nat.add_zero]

/-- A word write leaves every byte outside the word. -/
theorem memByte_memWriteWord_other {m : Mem} {i b : Nat} {w : Word} (h : b < 4 * i ∨ 4 * i + 4 ≤ b) :
    memByte (memWriteWord m i w) b = memByte m b := by
  rw [memByte_memWriteWord]
  repeat rw [if_neg (by omega)]

/-- A word write keeps the canonical form. -/
theorem memWriteWord_wf {m : Mem} (i : Nat) (w : Word) (h : Mem.wf m) : Mem.wf (memWriteWord m i w) :=
  memSetByte_wf _ _ (memSetByte_wf _ _ (memSetByte_wf _ _ (memSetByte_wf _ _ h)))

/-- A word write at an index of the memory keeps it inside the address space (R51). -/
theorem memWriteWord_inRange {m : Mem} {i n : Nat} {w : Word} (hi : i < n) (h : Mem.inRange m n) :
    Mem.inRange (memWriteWord m i w) n := by
  unfold memWriteWord byteAddr
  refine memSetByte_inRange (by omega) (memSetByte_inRange (by omega) (memSetByte_inRange (by omega)
    (memSetByte_inRange (by omega) h)))

/-- The four bytes of a word give the word (R47). -/
theorem wordOfBytes_wordByte (w : Word) :
    wordOfBytes (wordByte w 0) (wordByte w 1) (wordByte w 2) (wordByte w 3) = w := by
  simp only [wordOfBytes, wordByte]
  ext i hi
  simp only [BitVec.getElem_append, BitVec.getElem_extractLsb']
  split
  · simp [BitVec.getLsbD_eq_getElem hi]
  · split
    · rw [← BitVec.getLsbD_eq_getElem]; congr 1; omega
    · split
      · rw [← BitVec.getLsbD_eq_getElem]; congr 1; omega
      · rw [← BitVec.getLsbD_eq_getElem]; congr 1; omega

/-- The four bytes of a word after it is written are the word's. -/
theorem memByte_memWriteWord_same (m : Mem) (i : Nat) (w : Word) :
    memByte (memWriteWord m i w) (byteAddr i 0) = some (wordByte w 0) ∧
    memByte (memWriteWord m i w) (byteAddr i 1) = some (wordByte w 1) ∧
    memByte (memWriteWord m i w) (byteAddr i 2) = some (wordByte w 2) ∧
    memByte (memWriteWord m i w) (byteAddr i 3) = some (wordByte w 3) := by
  refine ⟨?_, ?_, ?_, ?_⟩ <;> simp [memByte_memWriteWord, byteAddr]

/-- A read after a write of the same word gives the word written and draws nothing (R50). -/
theorem memWord_memWriteWord_same (m : Mem) (i n : Nat) (w : Word) : memWord (memWriteWord m i w) i n = w := by
  obtain ⟨h0, h1, h2, h3⟩ := memByte_memWriteWord_same m i w
  simpa only [memWord, h0, h1, h2, h3, Option.getD_some] using wordOfBytes_wordByte w

/-- A word written is written. -/
theorem memWritten_memWriteWord_same (m : Mem) (i : Nat) (w : Word) : memWritten (memWriteWord m i w) i = true := by
  obtain ⟨h0, h1, h2, h3⟩ := memByte_memWriteWord_same m i w
  simp [memWritten, h0, h1, h2, h3]

/-- A read of another word is as before the write. -/
theorem memWord_memWriteWord_other {m : Mem} {i j n : Nat} {w : Word} (h : i ≠ j) :
    memWord (memWriteWord m i w) j n = memWord m j n := by
  have hk : ∀ k, k < 4 → memByte (memWriteWord m i w) (byteAddr j k) = memByte m (byteAddr j k) :=
    fun k hk => memByte_memWriteWord_other (by unfold byteAddr; omega)
  simp only [memWord, hk 0 (by omega), hk 1 (by omega), hk 2 (by omega), hk 3 (by omega)]

/-- A word depends on its own four bytes only. -/
theorem memWord_congr {m m' : Mem} {i : Nat} (h : ∀ a, 4 * i ≤ a → a < 4 * i + 4 → memByte m a = memByte m' a)
    (n : Nat) : memWord m i n = memWord m' i n := by
  have hk : ∀ k, k < 4 → memByte m (byteAddr i k) = memByte m' (byteAddr i k) :=
    fun k hk => h _ (by unfold byteAddr; omega) (by unfold byteAddr; omega)
  simp only [memWord, hk 0 (by omega), hk 1 (by omega), hk 2 (by omega), hk 3 (by omega)]

/-- Whether another word is written is as before the write. -/
theorem memWritten_memWriteWord_other {m : Mem} {i j : Nat} {w : Word} (h : i ≠ j) :
    memWritten (memWriteWord m i w) j = memWritten m j := by
  have hk : ∀ k, k < 4 → memByte (memWriteWord m i w) (byteAddr j k) = memByte m (byteAddr j k) :=
    fun k hk => memByte_memWriteWord_other (by unfold byteAddr; omega)
  simp only [memWritten, hk 0 (by omega), hk 1 (by omega), hk 2 (by omega), hk 3 (by omega)]

/-- The value of a written word does not depend on the draw. -/
theorem memWord_written {m : Mem} {i : Nat} (h : memWritten m i = true) (n k : Nat) :
    memWord m i n = memWord m i k := by
  simp only [memWritten, Bool.and_eq_true, Option.isSome_iff_exists] at h
  obtain ⟨⟨⟨⟨a, ha⟩, ⟨b, hb⟩⟩, ⟨c, hc⟩⟩, ⟨d, hd⟩⟩ := h
  simp only [memWord, ha, hb, hc, hd, Option.getD_some]

/-- A read of a written word draws nothing (U1). -/
theorem memDraws_written {m : Mem} {i : Nat} (h : memWritten m i = true) (n : Nat) : memDraws m i n = n := by
  simp [memDraws, h]

end Sys2Proof.Machine
end

