-- ==== Sys2Proof/Laws/State.lean ====
section
/-! SUPPORT. One lemma per field per update of State, each true by rfl, so that no proof unfolds a record update. -/

namespace Sys2Proof.Machine

/-! ### setBusy -/

@[simp] theorem State.setBusy_op (b : Bool) (s : State) : (s.setBusy b).op = s.op := rfl
@[simp] theorem State.setBusy_width (b : Bool) (s : State) : (s.setBusy b).width = s.width := rfl
@[simp] theorem State.setBusy_height (b : Bool) (s : State) : (s.setBusy b).height = s.height := rfl
@[simp] theorem State.setBusy_status (b : Bool) (s : State) : (s.setBusy b).status = writeFlag 0 b s.status := rfl
@[simp] theorem State.setBusy_errcode (b : Bool) (s : State) : (s.setBusy b).errcode = s.errcode := rfl
@[simp] theorem State.setBusy_scanx (b : Bool) (s : State) : (s.setBusy b).scanx = s.scanx := rfl
@[simp] theorem State.setBusy_scany (b : Bool) (s : State) : (s.setBusy b).scany = s.scany := rfl
@[simp] theorem State.setBusy_pin (b : Bool) (s : State) : (s.setBusy b).pin = s.pin := rfl
@[simp] theorem State.setBusy_pout (b : Bool) (s : State) : (s.setBusy b).pout = s.pout := rfl
@[simp] theorem State.setBusy_imem (b : Bool) (s : State) : (s.setBusy b).imem = s.imem := rfl
@[simp] theorem State.setBusy_omem (b : Bool) (s : State) : (s.setBusy b).omem = s.omem := rfl
@[simp] theorem State.setBusy_config (b : Bool) (s : State) : (s.setBusy b).config = s.config := rfl
@[simp] theorem State.setBusy_race (b : Bool) (s : State) : (s.setBusy b).race = s.race := rfl
@[simp] theorem State.setBusy_draws (b : Bool) (s : State) : (s.setBusy b).draws = s.draws := rfl
@[simp] theorem State.setBusy_turns (b : Bool) (s : State) : (s.setBusy b).turns = s.turns := rfl
@[simp] theorem State.setBusy_replies (b : Bool) (s : State) : (s.setBusy b).replies = s.replies := rfl

/-! ### setDone -/

@[simp] theorem State.setDone_op (b : Bool) (s : State) : (s.setDone b).op = s.op := rfl
@[simp] theorem State.setDone_width (b : Bool) (s : State) : (s.setDone b).width = s.width := rfl
@[simp] theorem State.setDone_height (b : Bool) (s : State) : (s.setDone b).height = s.height := rfl
@[simp] theorem State.setDone_status (b : Bool) (s : State) : (s.setDone b).status = writeFlag 1 b s.status := rfl
@[simp] theorem State.setDone_errcode (b : Bool) (s : State) : (s.setDone b).errcode = s.errcode := rfl
@[simp] theorem State.setDone_scanx (b : Bool) (s : State) : (s.setDone b).scanx = s.scanx := rfl
@[simp] theorem State.setDone_scany (b : Bool) (s : State) : (s.setDone b).scany = s.scany := rfl
@[simp] theorem State.setDone_pin (b : Bool) (s : State) : (s.setDone b).pin = s.pin := rfl
@[simp] theorem State.setDone_pout (b : Bool) (s : State) : (s.setDone b).pout = s.pout := rfl
@[simp] theorem State.setDone_imem (b : Bool) (s : State) : (s.setDone b).imem = s.imem := rfl
@[simp] theorem State.setDone_omem (b : Bool) (s : State) : (s.setDone b).omem = s.omem := rfl
@[simp] theorem State.setDone_config (b : Bool) (s : State) : (s.setDone b).config = s.config := rfl
@[simp] theorem State.setDone_race (b : Bool) (s : State) : (s.setDone b).race = s.race := rfl
@[simp] theorem State.setDone_draws (b : Bool) (s : State) : (s.setDone b).draws = s.draws := rfl
@[simp] theorem State.setDone_turns (b : Bool) (s : State) : (s.setDone b).turns = s.turns := rfl
@[simp] theorem State.setDone_replies (b : Bool) (s : State) : (s.setDone b).replies = s.replies := rfl

/-! ### setErr -/

@[simp] theorem State.setErr_op (b : Bool) (s : State) : (s.setErr b).op = s.op := rfl
@[simp] theorem State.setErr_width (b : Bool) (s : State) : (s.setErr b).width = s.width := rfl
@[simp] theorem State.setErr_height (b : Bool) (s : State) : (s.setErr b).height = s.height := rfl
@[simp] theorem State.setErr_status (b : Bool) (s : State) : (s.setErr b).status = writeFlag 2 b s.status := rfl
@[simp] theorem State.setErr_errcode (b : Bool) (s : State) : (s.setErr b).errcode = s.errcode := rfl
@[simp] theorem State.setErr_scanx (b : Bool) (s : State) : (s.setErr b).scanx = s.scanx := rfl
@[simp] theorem State.setErr_scany (b : Bool) (s : State) : (s.setErr b).scany = s.scany := rfl
@[simp] theorem State.setErr_pin (b : Bool) (s : State) : (s.setErr b).pin = s.pin := rfl
@[simp] theorem State.setErr_pout (b : Bool) (s : State) : (s.setErr b).pout = s.pout := rfl
@[simp] theorem State.setErr_imem (b : Bool) (s : State) : (s.setErr b).imem = s.imem := rfl
@[simp] theorem State.setErr_omem (b : Bool) (s : State) : (s.setErr b).omem = s.omem := rfl
@[simp] theorem State.setErr_config (b : Bool) (s : State) : (s.setErr b).config = s.config := rfl
@[simp] theorem State.setErr_race (b : Bool) (s : State) : (s.setErr b).race = s.race := rfl
@[simp] theorem State.setErr_draws (b : Bool) (s : State) : (s.setErr b).draws = s.draws := rfl
@[simp] theorem State.setErr_turns (b : Bool) (s : State) : (s.setErr b).turns = s.turns := rfl
@[simp] theorem State.setErr_replies (b : Bool) (s : State) : (s.setErr b).replies = s.replies := rfl

/-! ### raiseErr -/

@[simp] theorem State.raiseErr_op (e : ErrCause) (s : State) : (s.raiseErr e).op = s.op := rfl
@[simp] theorem State.raiseErr_width (e : ErrCause) (s : State) : (s.raiseErr e).width = s.width := rfl
@[simp] theorem State.raiseErr_height (e : ErrCause) (s : State) : (s.raiseErr e).height = s.height := rfl
@[simp] theorem State.raiseErr_status (e : ErrCause) (s : State) :
    (s.raiseErr e).status = writeFlag 2 true s.status := rfl
@[simp] theorem State.raiseErr_errcode (e : ErrCause) (s : State) : (s.raiseErr e).errcode = e.code := rfl
@[simp] theorem State.raiseErr_scanx (e : ErrCause) (s : State) : (s.raiseErr e).scanx = s.scanx := rfl
@[simp] theorem State.raiseErr_scany (e : ErrCause) (s : State) : (s.raiseErr e).scany = s.scany := rfl
@[simp] theorem State.raiseErr_pin (e : ErrCause) (s : State) : (s.raiseErr e).pin = s.pin := rfl
@[simp] theorem State.raiseErr_pout (e : ErrCause) (s : State) : (s.raiseErr e).pout = s.pout := rfl
@[simp] theorem State.raiseErr_imem (e : ErrCause) (s : State) : (s.raiseErr e).imem = s.imem := rfl
@[simp] theorem State.raiseErr_omem (e : ErrCause) (s : State) : (s.raiseErr e).omem = s.omem := rfl
@[simp] theorem State.raiseErr_config (e : ErrCause) (s : State) : (s.raiseErr e).config = s.config := rfl
@[simp] theorem State.raiseErr_race (e : ErrCause) (s : State) : (s.raiseErr e).race = s.race := rfl
@[simp] theorem State.raiseErr_draws (e : ErrCause) (s : State) : (s.raiseErr e).draws = s.draws := rfl
@[simp] theorem State.raiseErr_turns (e : ErrCause) (s : State) : (s.raiseErr e).turns = s.turns := rfl
@[simp] theorem State.raiseErr_replies (e : ErrCause) (s : State) : (s.raiseErr e).replies = s.replies := rfl

/-! ### clearReport -/

@[simp] theorem State.clearReport_op (s : State) : s.clearReport.op = s.op := rfl
@[simp] theorem State.clearReport_width (s : State) : s.clearReport.width = s.width := rfl
@[simp] theorem State.clearReport_height (s : State) : s.clearReport.height = s.height := rfl
@[simp] theorem State.clearReport_status (s : State) :
    s.clearReport.status = writeFlag 2 false (writeFlag 1 false s.status) := rfl
@[simp] theorem State.clearReport_errcode (s : State) : s.clearReport.errcode = 0#2 := rfl
@[simp] theorem State.clearReport_scanx (s : State) : s.clearReport.scanx = s.scanx := rfl
@[simp] theorem State.clearReport_scany (s : State) : s.clearReport.scany = s.scany := rfl
@[simp] theorem State.clearReport_pin (s : State) : s.clearReport.pin = s.pin := rfl
@[simp] theorem State.clearReport_pout (s : State) : s.clearReport.pout = s.pout := rfl
@[simp] theorem State.clearReport_imem (s : State) : s.clearReport.imem = s.imem := rfl
@[simp] theorem State.clearReport_omem (s : State) : s.clearReport.omem = s.omem := rfl
@[simp] theorem State.clearReport_config (s : State) : s.clearReport.config = s.config := rfl
@[simp] theorem State.clearReport_race (s : State) : s.clearReport.race = s.race := rfl
@[simp] theorem State.clearReport_draws (s : State) : s.clearReport.draws = s.draws := rfl
@[simp] theorem State.clearReport_turns (s : State) : s.clearReport.turns = s.turns := rfl
@[simp] theorem State.clearReport_replies (s : State) : s.clearReport.replies = s.replies := rfl

/-! ### beginRun -/

@[simp] theorem State.beginRun_op (s : State) : s.beginRun.op = s.op := rfl
@[simp] theorem State.beginRun_width (s : State) : s.beginRun.width = s.width := rfl
@[simp] theorem State.beginRun_height (s : State) : s.beginRun.height = s.height := rfl
@[simp] theorem State.beginRun_status (s : State) : s.beginRun.status = writeFlag 0 true s.status := rfl
@[simp] theorem State.beginRun_errcode (s : State) : s.beginRun.errcode = s.errcode := rfl
@[simp] theorem State.beginRun_scanx (s : State) : s.beginRun.scanx = 0#16 := rfl
@[simp] theorem State.beginRun_scany (s : State) : s.beginRun.scany = 0#16 := rfl
@[simp] theorem State.beginRun_pin (s : State) : s.beginRun.pin = s.pin := rfl
@[simp] theorem State.beginRun_pout (s : State) : s.beginRun.pout = s.pout := rfl
@[simp] theorem State.beginRun_imem (s : State) : s.beginRun.imem = s.imem := rfl
@[simp] theorem State.beginRun_omem (s : State) : s.beginRun.omem = s.omem := rfl
@[simp] theorem State.beginRun_config (s : State) : s.beginRun.config = s.config := rfl
@[simp] theorem State.beginRun_race (s : State) :
    s.beginRun.race = RaceBook.ofRun s.omem := rfl
@[simp] theorem State.beginRun_draws (s : State) : s.beginRun.draws = s.draws := rfl
@[simp] theorem State.beginRun_turns (s : State) : s.beginRun.turns = s.turns := rfl
@[simp] theorem State.beginRun_replies (s : State) : s.beginRun.replies = s.replies := rfl

/-! ### finishRun -/

@[simp] theorem State.finishRun_op (s : State) : s.finishRun.op = s.op := rfl
@[simp] theorem State.finishRun_width (s : State) : s.finishRun.width = s.width := rfl
@[simp] theorem State.finishRun_height (s : State) : s.finishRun.height = s.height := rfl
@[simp] theorem State.finishRun_status (s : State) :
    s.finishRun.status = writeFlag 1 true (writeFlag 0 false s.status) := rfl
@[simp] theorem State.finishRun_errcode (s : State) : s.finishRun.errcode = s.errcode := rfl
@[simp] theorem State.finishRun_scanx (s : State) : s.finishRun.scanx = s.scanx := rfl
@[simp] theorem State.finishRun_scany (s : State) : s.finishRun.scany = s.scany := rfl
@[simp] theorem State.finishRun_pin (s : State) : s.finishRun.pin = s.pin := rfl
@[simp] theorem State.finishRun_pout (s : State) : s.finishRun.pout = s.pout := rfl
@[simp] theorem State.finishRun_imem (s : State) : s.finishRun.imem = s.imem := rfl
@[simp] theorem State.finishRun_omem (s : State) : s.finishRun.omem = s.omem := rfl
@[simp] theorem State.finishRun_config (s : State) : s.finishRun.config = s.config := rfl
@[simp] theorem State.finishRun_race (s : State) : s.finishRun.race = RaceBook.none := rfl
@[simp] theorem State.finishRun_draws (s : State) : s.finishRun.draws = s.draws := rfl
@[simp] theorem State.finishRun_turns (s : State) : s.finishRun.turns = s.turns := rfl
@[simp] theorem State.finishRun_replies (s : State) : s.finishRun.replies = s.replies := rfl

/-! ### afterPixel -/

@[simp] theorem State.afterPixel_op (T : Colour → Colour) (s : State) : (s.afterPixel T).op = s.op := rfl
@[simp] theorem State.afterPixel_width (T : Colour → Colour) (s : State) : (s.afterPixel T).width = s.width := rfl
@[simp] theorem State.afterPixel_height (T : Colour → Colour) (s : State) :
    (s.afterPixel T).height = s.height := rfl
@[simp] theorem State.afterPixel_status (T : Colour → Colour) (s : State) :
    (s.afterPixel T).status = s.status := rfl
@[simp] theorem State.afterPixel_errcode (T : Colour → Colour) (s : State) :
    (s.afterPixel T).errcode = s.errcode := rfl
@[simp] theorem State.afterPixel_scanx (T : Colour → Colour) (s : State) :
    (s.afterPixel T).scanx = (nextPos s.width s.scanx s.scany).1 := rfl
@[simp] theorem State.afterPixel_scany (T : Colour → Colour) (s : State) :
    (s.afterPixel T).scany = (nextPos s.width s.scanx s.scany).2 := rfl
@[simp] theorem State.afterPixel_pin (T : Colour → Colour) (s : State) :
    (s.afterPixel T).pin = unpack (s.fetchWord s.scanIndex) := rfl
@[simp] theorem State.afterPixel_pout (T : Colour → Colour) (s : State) :
    (s.afterPixel T).pout = outPixel T (unpack (s.fetchWord s.scanIndex)) := rfl
@[simp] theorem State.afterPixel_imem (T : Colour → Colour) (s : State) : (s.afterPixel T).imem = s.imem := rfl
@[simp] theorem State.afterPixel_omem (T : Colour → Colour) (s : State) :
    (s.afterPixel T).omem = s.storeOmem s.scanIndex (pixelFunction T (s.fetchWord s.scanIndex)) := rfl
@[simp] theorem State.afterPixel_config (T : Colour → Colour) (s : State) :
    (s.afterPixel T).config = s.config := rfl
@[simp] theorem State.afterPixel_race (T : Colour → Colour) (s : State) :
    (s.afterPixel T).race = s.storeRace s.scanIndex (pixelFunction T (s.fetchWord s.scanIndex)) := rfl
@[simp] theorem State.afterPixel_draws (T : Colour → Colour) (s : State) :
    (s.afterPixel T).draws = s.fetchDraws s.scanIndex := rfl
@[simp] theorem State.afterPixel_turns (T : Colour → Colour) (s : State) : (s.afterPixel T).turns = s.turns := rfl
@[simp] theorem State.afterPixel_replies (T : Colour → Colour) (s : State) :
    (s.afterPixel T).replies = s.replies := rfl

/-! ### resetEvent -/

@[simp] theorem State.resetEvent_op (s : State) : s.resetEvent.op = 0#4 := rfl
@[simp] theorem State.resetEvent_width (s : State) : s.resetEvent.width = 0#16 := rfl
@[simp] theorem State.resetEvent_height (s : State) : s.resetEvent.height = 0#16 := rfl
@[simp] theorem State.resetEvent_status (s : State) : s.resetEvent.status = 0#3 := rfl
@[simp] theorem State.resetEvent_errcode (s : State) : s.resetEvent.errcode = 0#2 := rfl
@[simp] theorem State.resetEvent_scanx (s : State) : s.resetEvent.scanx = 0#16 := rfl
@[simp] theorem State.resetEvent_scany (s : State) : s.resetEvent.scany = 0#16 := rfl
@[simp] theorem State.resetEvent_pin (s : State) : s.resetEvent.pin = freePixel s.draws := rfl
@[simp] theorem State.resetEvent_pout (s : State) : s.resetEvent.pout = freePixel (s.draws + 4) := rfl
@[simp] theorem State.resetEvent_imem (s : State) : s.resetEvent.imem = [] := rfl
@[simp] theorem State.resetEvent_omem (s : State) : s.resetEvent.omem = [] := rfl
@[simp] theorem State.resetEvent_config (s : State) : s.resetEvent.config = s.config := rfl
@[simp] theorem State.resetEvent_race (s : State) : s.resetEvent.race = RaceBook.none := rfl
@[simp] theorem State.resetEvent_draws (s : State) : s.resetEvent.draws = s.draws + 8 := rfl
@[simp] theorem State.resetEvent_turns (s : State) : s.resetEvent.turns = s.turns := rfl
@[simp] theorem State.resetEvent_replies (s : State) : s.resetEvent.replies = s.replies := rfl

/-! ### reply -/

@[simp] theorem State.reply_op (w : Word) (s : State) : (s.reply w).op = s.op := rfl
@[simp] theorem State.reply_width (w : Word) (s : State) : (s.reply w).width = s.width := rfl
@[simp] theorem State.reply_height (w : Word) (s : State) : (s.reply w).height = s.height := rfl
@[simp] theorem State.reply_status (w : Word) (s : State) : (s.reply w).status = s.status := rfl
@[simp] theorem State.reply_errcode (w : Word) (s : State) : (s.reply w).errcode = s.errcode := rfl
@[simp] theorem State.reply_scanx (w : Word) (s : State) : (s.reply w).scanx = s.scanx := rfl
@[simp] theorem State.reply_scany (w : Word) (s : State) : (s.reply w).scany = s.scany := rfl
@[simp] theorem State.reply_pin (w : Word) (s : State) : (s.reply w).pin = s.pin := rfl
@[simp] theorem State.reply_pout (w : Word) (s : State) : (s.reply w).pout = s.pout := rfl
@[simp] theorem State.reply_imem (w : Word) (s : State) : (s.reply w).imem = s.imem := rfl
@[simp] theorem State.reply_omem (w : Word) (s : State) : (s.reply w).omem = s.omem := rfl
@[simp] theorem State.reply_config (w : Word) (s : State) : (s.reply w).config = s.config := rfl
@[simp] theorem State.reply_race (w : Word) (s : State) : (s.reply w).race = s.race := rfl
@[simp] theorem State.reply_draws (w : Word) (s : State) : (s.reply w).draws = s.draws := rfl
@[simp] theorem State.reply_turns (w : Word) (s : State) : (s.reply w).turns = s.turns := rfl
@[simp] theorem State.reply_replies (w : Word) (s : State) : (s.reply w).replies = w :: s.replies := rfl

/-! ### replyFrom -/

@[simp] theorem State.replyFrom_op (m : Mem) (i : Nat) (s : State) : (s.replyFrom m i).op = s.op := rfl
@[simp] theorem State.replyFrom_width (m : Mem) (i : Nat) (s : State) : (s.replyFrom m i).width = s.width := rfl
@[simp] theorem State.replyFrom_height (m : Mem) (i : Nat) (s : State) : (s.replyFrom m i).height = s.height := rfl
@[simp] theorem State.replyFrom_status (m : Mem) (i : Nat) (s : State) : (s.replyFrom m i).status = s.status := rfl
@[simp] theorem State.replyFrom_errcode (m : Mem) (i : Nat) (s : State) :
    (s.replyFrom m i).errcode = s.errcode := rfl
@[simp] theorem State.replyFrom_scanx (m : Mem) (i : Nat) (s : State) : (s.replyFrom m i).scanx = s.scanx := rfl
@[simp] theorem State.replyFrom_scany (m : Mem) (i : Nat) (s : State) : (s.replyFrom m i).scany = s.scany := rfl
@[simp] theorem State.replyFrom_pin (m : Mem) (i : Nat) (s : State) : (s.replyFrom m i).pin = s.pin := rfl
@[simp] theorem State.replyFrom_pout (m : Mem) (i : Nat) (s : State) : (s.replyFrom m i).pout = s.pout := rfl
@[simp] theorem State.replyFrom_imem (m : Mem) (i : Nat) (s : State) : (s.replyFrom m i).imem = s.imem := rfl
@[simp] theorem State.replyFrom_omem (m : Mem) (i : Nat) (s : State) : (s.replyFrom m i).omem = s.omem := rfl
@[simp] theorem State.replyFrom_config (m : Mem) (i : Nat) (s : State) : (s.replyFrom m i).config = s.config := rfl
@[simp] theorem State.replyFrom_race (m : Mem) (i : Nat) (s : State) : (s.replyFrom m i).race = s.race := rfl
@[simp] theorem State.replyFrom_draws (m : Mem) (i : Nat) (s : State) :
    (s.replyFrom m i).draws = memDraws m i s.draws := rfl
@[simp] theorem State.replyFrom_turns (m : Mem) (i : Nat) (s : State) : (s.replyFrom m i).turns = s.turns := rfl
@[simp] theorem State.replyFrom_replies (m : Mem) (i : Nat) (s : State) :
    (s.replyFrom m i).replies = memWord m i s.draws :: s.replies := rfl

/-! ### drawCoin -/

@[simp] theorem State.drawCoin_op (s : State) : (s.drawCoin).op = s.op := rfl
@[simp] theorem State.drawCoin_width (s : State) : (s.drawCoin).width = s.width := rfl
@[simp] theorem State.drawCoin_height (s : State) : (s.drawCoin).height = s.height := rfl
@[simp] theorem State.drawCoin_status (s : State) : (s.drawCoin).status = s.status := rfl
@[simp] theorem State.drawCoin_errcode (s : State) : (s.drawCoin).errcode = s.errcode := rfl
@[simp] theorem State.drawCoin_scanx (s : State) : (s.drawCoin).scanx = s.scanx := rfl
@[simp] theorem State.drawCoin_scany (s : State) : (s.drawCoin).scany = s.scany := rfl
@[simp] theorem State.drawCoin_pin (s : State) : (s.drawCoin).pin = s.pin := rfl
@[simp] theorem State.drawCoin_pout (s : State) : (s.drawCoin).pout = s.pout := rfl
@[simp] theorem State.drawCoin_imem (s : State) : (s.drawCoin).imem = s.imem := rfl
@[simp] theorem State.drawCoin_omem (s : State) : (s.drawCoin).omem = s.omem := rfl
@[simp] theorem State.drawCoin_config (s : State) : (s.drawCoin).config = s.config := rfl
@[simp] theorem State.drawCoin_race (s : State) : (s.drawCoin).race = s.race := rfl
@[simp] theorem State.drawCoin_draws (s : State) : (s.drawCoin).draws = s.draws + 1 := rfl
@[simp] theorem State.drawCoin_turns (s : State) : (s.drawCoin).turns = s.turns := rfl
@[simp] theorem State.drawCoin_replies (s : State) : (s.drawCoin).replies = s.replies := rfl

/-! ### raceAhead -/

@[simp] theorem State.raceAhead_op (i : Nat) (w : Word) (s : State) : (s.raceAhead i w).op = s.op := rfl
@[simp] theorem State.raceAhead_width (i : Nat) (w : Word) (s : State) : (s.raceAhead i w).width = s.width := rfl
@[simp] theorem State.raceAhead_height (i : Nat) (w : Word) (s : State) : (s.raceAhead i w).height = s.height := rfl
@[simp] theorem State.raceAhead_status (i : Nat) (w : Word) (s : State) : (s.raceAhead i w).status = s.status := rfl
@[simp] theorem State.raceAhead_errcode (i : Nat) (w : Word) (s : State) :
    (s.raceAhead i w).errcode = s.errcode := rfl
@[simp] theorem State.raceAhead_scanx (i : Nat) (w : Word) (s : State) : (s.raceAhead i w).scanx = s.scanx := rfl
@[simp] theorem State.raceAhead_scany (i : Nat) (w : Word) (s : State) : (s.raceAhead i w).scany = s.scany := rfl
@[simp] theorem State.raceAhead_pin (i : Nat) (w : Word) (s : State) : (s.raceAhead i w).pin = s.pin := rfl
@[simp] theorem State.raceAhead_pout (i : Nat) (w : Word) (s : State) : (s.raceAhead i w).pout = s.pout := rfl
@[simp] theorem State.raceAhead_imem (i : Nat) (w : Word) (s : State) : (s.raceAhead i w).imem = s.imem := rfl
@[simp] theorem State.raceAhead_omem (i : Nat) (w : Word) (s : State) :
    (s.raceAhead i w).omem = memWriteWord s.omem i w := rfl
@[simp] theorem State.raceAhead_config (i : Nat) (w : Word) (s : State) : (s.raceAhead i w).config = s.config := rfl
@[simp] theorem State.raceAhead_race (i : Nat) (w : Word) (s : State) :
    (s.raceAhead i w).race =
    { s.race with
      kept := if s.coin then i :: s.race.kept else s.race.kept.filter (· != i)
      before := memWriteWord s.race.before i w } := rfl
@[simp] theorem State.raceAhead_draws (i : Nat) (w : Word) (s : State) : (s.raceAhead i w).draws = s.draws + 1 := rfl
@[simp] theorem State.raceAhead_turns (i : Nat) (w : Word) (s : State) : (s.raceAhead i w).turns = s.turns := rfl
@[simp] theorem State.raceAhead_replies (i : Nat) (w : Word) (s : State) :
    (s.raceAhead i w).replies = s.replies := rfl

/-! ### raceBehind -/

@[simp] theorem State.raceBehind_op (i : Nat) (w : Word) (s : State) : (s.raceBehind i w).op = s.op := rfl
@[simp] theorem State.raceBehind_width (i : Nat) (w : Word) (s : State) : (s.raceBehind i w).width = s.width := rfl
@[simp] theorem State.raceBehind_height (i : Nat) (w : Word) (s : State) : (s.raceBehind i w).height = s.height := rfl
@[simp] theorem State.raceBehind_status (i : Nat) (w : Word) (s : State) : (s.raceBehind i w).status = s.status := rfl
@[simp] theorem State.raceBehind_errcode (i : Nat) (w : Word) (s : State) :
    (s.raceBehind i w).errcode = s.errcode := rfl
@[simp] theorem State.raceBehind_scanx (i : Nat) (w : Word) (s : State) : (s.raceBehind i w).scanx = s.scanx := rfl
@[simp] theorem State.raceBehind_scany (i : Nat) (w : Word) (s : State) : (s.raceBehind i w).scany = s.scany := rfl
@[simp] theorem State.raceBehind_pin (i : Nat) (w : Word) (s : State) : (s.raceBehind i w).pin = s.pin := rfl
@[simp] theorem State.raceBehind_pout (i : Nat) (w : Word) (s : State) : (s.raceBehind i w).pout = s.pout := rfl
@[simp] theorem State.raceBehind_imem (i : Nat) (w : Word) (s : State) : (s.raceBehind i w).imem = s.imem := rfl
@[simp] theorem State.raceBehind_omem (i : Nat) (w : Word) (s : State) :
    (s.raceBehind i w).omem =
      memWriteWord s.omem i (if s.coin then w else memWord s.race.stored i (s.draws + 1)) := rfl
@[simp] theorem State.raceBehind_config (i : Nat) (w : Word) (s : State) : (s.raceBehind i w).config = s.config := rfl
@[simp] theorem State.raceBehind_race (i : Nat) (w : Word) (s : State) :
    (s.raceBehind i w).race = { s.race with before := memWriteWord s.race.before i w } := rfl
@[simp] theorem State.raceBehind_draws (i : Nat) (w : Word) (s : State) :
    (s.raceBehind i w).draws =
      if s.coin then s.draws + 1 else memDraws s.race.stored i (s.draws + 1) := rfl
@[simp] theorem State.raceBehind_turns (i : Nat) (w : Word) (s : State) : (s.raceBehind i w).turns = s.turns := rfl
@[simp] theorem State.raceBehind_replies (i : Nat) (w : Word) (s : State) :
    (s.raceBehind i w).replies = s.replies := rfl

/-! ### The record of races -/

@[simp] theorem RaceBook.ofRun_stale (m : Mem) : (RaceBook.ofRun m).stale = [] := rfl
@[simp] theorem RaceBook.ofRun_kept (m : Mem) : (RaceBook.ofRun m).kept = [] := rfl
@[simp] theorem RaceBook.ofRun_before (m : Mem) : (RaceBook.ofRun m).before = m := rfl
@[simp] theorem RaceBook.ofRun_stored (m : Mem) : (RaceBook.ofRun m).stored = [] := rfl
@[simp] theorem RaceBook.none_stale : RaceBook.none.stale = [] := rfl
@[simp] theorem RaceBook.none_kept : RaceBook.none.kept = [] := rfl
@[simp] theorem RaceBook.none_before : RaceBook.none.before = [] := rfl
@[simp] theorem RaceBook.none_stored : RaceBook.none.stored = [] := rfl
@[simp] theorem State.storeRace_stale (i : Nat) (w : Word) (s : State) :
    (s.storeRace i w).stale = s.race.stale := rfl
@[simp] theorem State.storeRace_kept (i : Nat) (w : Word) (s : State) : (s.storeRace i w).kept = s.race.kept := rfl
@[simp] theorem State.storeRace_before (i : Nat) (w : Word) (s : State) :
    (s.storeRace i w).before = s.race.before := rfl
@[simp] theorem State.storeRace_stored (i : Nat) (w : Word) (s : State) :
    (s.storeRace i w).stored = memWriteWord s.race.stored i w := rfl

/-! ### Flags -/

/-- Writing a flag reads back as written. -/
theorem writeFlag_same (k : Fin 3) (b : Bool) (v : BitVec 3) : (writeFlag k b v).getLsbD k = b := by
  revert k b v; decide

/-- Writing a flag leaves the others. -/
theorem writeFlag_other (j k : Fin 3) (b : Bool) (v : BitVec 3) (h : j ≠ k) :
    (writeFlag k b v).getLsbD j = v.getLsbD j := by
  revert j k b v; decide

/-- STATUS is its three flags (R29). -/
theorem status_eq_of_flags (v w : BitVec 3) (h0 : v.getLsbD 0 = w.getLsbD 0) (h1 : v.getLsbD 1 = w.getLsbD 1)
    (h2 : v.getLsbD 2 = w.getLsbD 2) : v = w := by
  revert v w; decide

@[simp] theorem State.clearReport_busy (s : State) : s.clearReport.busy = s.busy := by
  simp only [State.busy, State.clearReport_status]
  generalize s.status = v; revert v; decide

@[simp] theorem State.clearReport_done (s : State) : s.clearReport.done = false := by
  simp only [State.done, State.clearReport_status]
  generalize s.status = v; revert v; decide

@[simp] theorem State.clearReport_err (s : State) : s.clearReport.err = false := by
  simp only [State.err, State.clearReport_status]
  generalize s.status = v; revert v; decide

@[simp] theorem State.beginRun_busy (s : State) : s.beginRun.busy = true := by
  simp only [State.busy, State.beginRun_status]
  generalize s.status = v; revert v; decide

@[simp] theorem State.raiseErr_err (e : ErrCause) (s : State) : (s.raiseErr e).err = true := by
  simp only [State.err, State.raiseErr_status]
  generalize s.status = v; revert v; decide

@[simp] theorem State.raiseErr_busy (e : ErrCause) (s : State) : (s.raiseErr e).busy = s.busy := by
  simp only [State.busy, State.raiseErr_status]
  generalize s.status = v; revert v; decide

@[simp] theorem State.finishRun_busy (s : State) : s.finishRun.busy = false := by
  simp only [State.busy, State.finishRun_status]
  generalize s.status = v; revert v; decide

@[simp] theorem State.finishRun_done (s : State) : s.finishRun.done = true := by
  simp only [State.done, State.finishRun_status]
  generalize s.status = v; revert v; decide

@[simp] theorem State.finishRun_err (s : State) : s.finishRun.err = s.err := by
  simp only [State.err, State.finishRun_status]
  generalize s.status = v; revert v; decide

@[simp] theorem State.afterPixel_busy (T : Colour → Colour) (s : State) : (s.afterPixel T).busy = s.busy := rfl

/-- An idle engine's STATUS after the report is cleared is 0 (R194). -/
theorem State.clearReport_status_idle (s : State) (h : s.busy = false) : s.clearReport.status = 0#3 := by
  simp only [State.busy] at h
  simp only [State.clearReport_status]
  revert h; generalize s.status = v; revert v; decide

/-- STATUS while BUSY = 1 is 1 in a state with at most one flag set (R29, R40). -/
theorem State.Inv_busy_status (v : BitVec 3) (h : v = 0#3 ∨ v = 1#3 ∨ v = 2#3 ∨ v = 4#3) (hb : v.getLsbD 0 = true) :
    v = 1#3 := by
  revert v; decide

end Sys2Proof.Machine
end

