-- ==== Sys2Proof/Laws/Scan.lean ====
section
/-! SUPPORT. The pixel step, the engine's turn and the commands: for each, once, everything it can do. -/

namespace Sys2Proof.Machine

/-! ### The pixel step (R86) -/

/-- Everything the pixel step can do when it answers a next state. -/
theorem pixelStep_cases {T : Colour → Colour} {s t : State} (h : pixelStep T s = .next t) :
    (s.pixelReady ∧ t = s.afterPixel T) ∨ (s.pixelEnabled = false ∧ t = s) := by
  unfold pixelStep at h
  split at h
  · split at h
    · exact .inl ⟨⟨‹_›, ‹_›⟩, by simpa using h.symm⟩
    · cases h
  · exact .inr ⟨Bool.eq_false_iff.mpr ‹_›, by simpa using h.symm⟩

/-- A ready state takes the pixel step. -/
theorem pixelStep_ready {T : Colour → Colour} {s : State} (h : s.pixelReady) :
    pixelStep T s = .next (s.afterPixel T) := by
  simp [pixelStep, h.1, h.2]

/-- The pixel step refuses nothing, and faults only on an index that does not exist. -/
theorem pixelStep_total (T : Colour → Colour) (s : State) :
    (∃ t, pixelStep T s = .next t) ∨
    (pixelStep T s = .fault .engineIndexOutOfRange ∧ s.config.memPixels ≤ s.scanIndex) := by
  unfold pixelStep
  split
  · split
    · exact .inl ⟨_, rfl⟩
    · exact .inr ⟨rfl, by omega⟩
  · exact .inl ⟨_, rfl⟩

/-- Each operation code's meaning is the pixel step with its transform (R98). -/
theorem exec_transform {i : Instr} {s : State} {T : Colour → Colour} (h : transformOf s.config i = some T) :
    exec i s = pixelStep T s := by
  cases i <;> simp only [transformOf, Option.some.injEq, reduceCtorEq] at h <;> subst h <;> rfl

/-- Every operation code but the reserved one selects a transform (R74, R98). -/
theorem decodeOp_transform (cfg : Config) (op : BitVec 4) (h : op ≠ 15#4) :
    ∃ i T, decode (.op4 op) = .instr i ∧ transformOf cfg i = some T := by
  have key : ∀ o : BitVec 4, o ≠ 15#4 →
      ∃ i, decode (.op4 o) = .instr i ∧ i ≠ .start ∧ i ≠ .clr := by
    intro o ho
    have : ∀ o : BitVec 4, o ≠ 15#4 → (match decode (.op4 o) with
      | .instr i => i != .start && i != .clr
      | .rejected _ => false) = true := by decide
    have := this o ho
    split at this
    · rename_i i hi
      exact ⟨i, hi, by simpa using this⟩
    · cases this
  obtain ⟨i, hi, hs, hc⟩ := key op h
  refine ⟨i, (transformOf cfg i).getD grayColour, hi, ?_⟩
  cases i <;> first | rfl | contradiction

/-- The next scan position as numbers (R88): in an enabled pixel step nothing wraps. -/
theorem nextPos_toNat {w h px py : Half} (hw : 0 < w.toNat) (hy : py.toNat < h.toNat) :
    ((nextPos w px py).1.toNat, (nextPos w px py).2.toNat) =
      if px.toNat + 1 < w.toNat then (px.toNat + 1, py.toNat) else (0, py.toNat + 1) := by
  have h1 := w.isLt
  have h2 := h.isLt
  unfold nextPos
  split
  · simp only [BitVec.toNat_add, BitVec.toNat_ofNat, Prod.mk.injEq, and_true]; omega
  · simp only [BitVec.toNat_add, BitVec.toNat_ofNat, Prod.mk.injEq]
    exact ⟨trivial, by omega⟩

/-- OMEM after the engine's store at index `i`. -/
theorem storeOmem_other {i a : Nat} {w : Word} {s : State} (h : ¬ inWord i a) :
    memByte (s.storeOmem i w) a = memByte s.omem a := by
  unfold State.storeOmem
  split
  · rfl
  · exact memByte_memWriteWord_other (by unfold inWord at h; omega)

/-- The store keeps the canonical form. -/
theorem storeOmem_wf {i : Nat} {w : Word} {s : State} (h : Mem.wf s.omem) : Mem.wf (s.storeOmem i w) := by
  unfold State.storeOmem
  split
  · exact h
  · exact memWriteWord_wf _ _ h

/-- The store keeps OMEM inside the address space. -/
theorem storeOmem_inRange {i n : Nat} {w : Word} {s : State} (hi : i < n) (h : Mem.inRange s.omem n) :
    Mem.inRange (s.storeOmem i w) n := by
  unfold State.storeOmem
  split
  · exact h
  · exact memWriteWord_inRange hi h

/-- The pixel index after a pixel step inside the raster is the next one (R48, R88). -/
theorem afterPixel_scanIndex {T : Colour → Colour} {s : State} (hx : s.scanx.toNat < s.width.toNat)
    (hy : s.scany.toNat < s.height.toNat) : (s.afterPixel T).scanIndex = s.scanIndex + 1 := by
  have hw : 0 < s.width.toNat := by omega
  have hn := nextPos_toNat (px := s.scanx) hw hy
  unfold State.scanIndex
  simp only [State.afterPixel_scanx, State.afterPixel_scany, State.afterPixel_width]
  split at hn
  · simp only [Prod.mk.injEq] at hn
    rw [hn.1, hn.2]; omega
  · simp only [Prod.mk.injEq] at hn
    rw [hn.1, hn.2, Nat.add_mul, Nat.one_mul]; omega

/-! ### Commands (R193, R194) -/

/-- Everything START can do. -/
theorem execStart_cases {s t : State} (h : execStart s = .next t) :
    (s.busy = true ∧ t = s) ∨
    (s.busy = false ∧ s.op = 15#4 ∧ t = s.clearReport.raiseErr .illegalOp) ∨
    (s.busy = false ∧ s.op ≠ 15#4 ∧ s.config.memPixels < s.rasterSize ∧ t = s.clearReport.raiseErr .badDim) ∨
    (s.busy = false ∧ s.op ≠ 15#4 ∧ s.rasterSize ≤ s.config.memPixels ∧ t = s.clearReport.beginRun) := by
  unfold execStart at h
  split at h
  · exact .inl ⟨‹_›, by simpa using h.symm⟩
  · have hb : s.busy = false := Bool.eq_false_iff.mpr ‹_›
    split at h
    · exact .inr (.inl ⟨hb, ‹_›, by simpa using h.symm⟩)
    · split at h
      · exact .inr (.inr (.inl ⟨hb, ‹_›, ‹_›, by simpa using h.symm⟩))
      · exact .inr (.inr (.inr ⟨hb, ‹_›, by omega, by simpa using h.symm⟩))

/-- Everything CLR can do. -/
theorem execClr_cases {s t : State} (h : execClr s = .next t) :
    (s.busy = true ∧ t = s) ∨ (s.busy = false ∧ t = s.clearReport) := by
  unfold execClr at h
  split at h
  · exact .inl ⟨‹_›, by simpa using h.symm⟩
  · exact .inr ⟨Bool.eq_false_iff.mpr ‹_›, by simpa using h.symm⟩

/-! ### The engine's turn (R85) -/

/-- Everything the engine's turn can do when it answers a next state. -/
theorem engineTurn_cases {s t : State} (h : engineTurn s = .next t) :
    (∃ i T, decode (.op4 s.op) = .instr i ∧ transformOf s.config i = some T ∧ s.pixelReady ∧ t = s.afterPixel T) ∨
    (s.finishEnabled = true ∧ s.pixelEnabled = false ∧ t = s.finishRun) ∨
    (s.pixelEnabled = false ∧ s.finishEnabled = false ∧ t = s) := by
  unfold engineTurn at h
  split at h
  · rename_i hp
    split at h
    · rename_i i hi
      have ho : s.op ≠ 15#4 := by
        intro ho
        rw [ho, show decode (.op4 15#4) = .rejected .reservedOp from rfl] at hi
        cases hi
      obtain ⟨j, T, hj, hT⟩ := decodeOp_transform s.config s.op ho
      have hij : j = i := by rw [hj] at hi; exact Decoded.instr.inj hi
      subst hij
      rw [exec_transform hT] at h
      rcases pixelStep_cases h with ⟨hr, ht⟩ | ⟨hn, _⟩
      · exact .inl ⟨j, T, hj, hT, hr, ht⟩
      · rw [hp] at hn; cases hn
    · cases h
  · have hp : s.pixelEnabled = false := Bool.eq_false_iff.mpr ‹_›
    split at h
    · exact .inr (.inl ⟨‹_›, hp, by simpa using h.symm⟩)
    · exact .inr (.inr ⟨hp, Bool.eq_false_iff.mpr ‹_›, by simpa using h.symm⟩)

end Sys2Proof.Machine
end

