-- ==== Sys2Proof/Laws/Moves.lean ====
section
/-! SUPPORT. The host's moves and one step of the machine: for each, once, everything it can do (R190 to R197). -/

namespace Sys2Proof.Machine

/-! ### Register moves -/

/-- Everything a register write can do: nothing while BUSY = 1; otherwise a command, or one of the three writable
registers, or nothing (R25, R33, R191). -/
theorem hostWriteReg_cases {idx : BitVec 3} {v : Word} {s t : State} (h : hostWriteReg idx v s = .next t) :
    (t = s) ∨
    (s.busy = false ∧ decodeReg idx = .ctrl ∧ decode (.ctrl v) = .instr .start ∧ execStart s = .next t) ∨
    (s.busy = false ∧ decodeReg idx = .ctrl ∧ decode (.ctrl v) = .instr .clr ∧ t = s.clearReport) ∨
    (s.busy = false ∧ decodeReg idx = .op ∧ t = { s with op := v.setWidth 4 }) ∨
    (s.busy = false ∧ decodeReg idx = .width ∧ t = { s with width := v.setWidth 16 }) ∨
    (s.busy = false ∧ decodeReg idx = .height ∧ t = { s with height := v.setWidth 16 }) := by
  unfold hostWriteReg at h
  split at h
  · rename_i hc
    by_cases h0 : v.getLsbD 0 = true
    · have hd : decode (.ctrl v) = .instr .start := by simp [decode, decodeCtrl, h0]
      rw [hd] at h
      have h : execStart s = .next t := h
      rcases execStart_cases h with ⟨_, rfl⟩ | ⟨hb, _⟩ | ⟨hb, _⟩ | ⟨hb, _⟩
      · exact .inl rfl
      all_goals exact .inr (.inl ⟨hb, hc, hd, h⟩)
    · by_cases h1 : v.getLsbD 1 = true
      · have hd : decode (.ctrl v) = .instr .clr := by simp only [decode, decodeCtrl, if_neg h0, if_pos h1]
        rw [hd] at h
        have h : execClr s = .next t := h
        rcases execClr_cases h with ⟨_, rfl⟩ | ⟨hb, rfl⟩
        · exact .inl rfl
        · exact .inr (.inr (.inl ⟨hb, hc, hd, rfl⟩))
      · have hd : decode (.ctrl v) = .rejected .noCommand := by
          simp only [decode, decodeCtrl, if_neg h0, if_neg h1]
        rw [hd] at h
        exact .inl (by simpa using h.symm)
  · rename_i hr
    have ht : t = writeReg (decodeReg idx) v s := by simpa using h.symm
    unfold writeReg at ht
    split at ht
    · exact .inl ht
    · have hb : s.busy = false := Bool.eq_false_iff.mpr ‹_›
      generalize hd : decodeReg idx = r at ht
      cases r with
      | ctrl => exact .inl ht
      | op => exact .inr (.inr (.inr (.inl ⟨hb, rfl, ht⟩)))
      | width => exact .inr (.inr (.inr (.inr (.inl ⟨hb, rfl, ht⟩))))
      | height => exact .inr (.inr (.inr (.inr (.inr ⟨hb, rfl, ht⟩))))
      | status => exact .inl ht
      | errcode => exact .inl ht
      | scanx => exact .inl ht
      | scany => exact .inl ht

/-! ### Memory moves: what they can do -/

/-- Taking hold of an IMEM word changes only the words held and the draws. -/
theorem hold_frame (i : Nat) (s : State) :
    ∃ st d, s.hold i = { s with race := { s.race with stale := st }, draws := d } := by
  unfold State.hold
  split
  · exact ⟨s.race.stale, s.draws, rfl⟩
  · exact ⟨_, _, rfl⟩

/-- What the engine holds after it has taken hold of an IMEM word: what it would have read. -/
theorem hold_held (i : Nat) (s : State) : staleWord (s.hold i).race.stale i = some (s.fetchWord i) := by
  unfold State.hold State.fetchWord
  split
  · rename_i h
    obtain ⟨w, hw⟩ := Option.isSome_iff_exists.mp h
    simp [hw]
  · rename_i h
    simp [staleWord, Option.not_isSome_iff_eq_none.mp h]

/-- Taking hold of an IMEM word leaves what is held of the others. -/
theorem hold_other {i j : Nat} (h : j ≠ i) (s : State) :
    staleWord (s.hold i).race.stale j = staleWord s.race.stale j := by
  unfold State.hold
  split
  · rfl
  · simp [staleWord, h]

/-- Taking hold of an IMEM word leaves what the engine will read there. -/
theorem hold_fetchWord (i : Nat) (s : State) : (s.hold i).fetchWord i = s.fetchWord i := by
  simp [State.fetchWord, hold_held]

/-- A word that is held is what the engine reads, whatever stands in IMEM. -/
theorem fetchWord_held {i : Nat} {w : Word} {s : State} (h : staleWord s.race.stale i = some w) :
    s.fetchWord i = w := by simp [State.fetchWord, h]

/-- A word the engine reads and does not hold is IMEM's. -/
theorem fetchWord_free {i : Nat} {s : State} (h : staleWord s.race.stale i = none) :
    s.fetchWord i = memWord s.imem i s.draws := by simp [State.fetchWord, h]

/-- Marking a racing IMEM word changes only the words held and the draws. -/
theorem markStale_frame (i : Nat) (s : State) :
    ∃ st d, s.markStale i = { s with race := { s.race with stale := st }, draws := d } := by
  unfold State.markStale
  split
  · split
    · obtain ⟨st, d, h⟩ := hold_frame i s.drawCoin
      exact ⟨st, d, by rw [h]; rfl⟩
    · exact ⟨s.race.stale, s.draws + 1, rfl⟩
  · exact ⟨s.race.stale, s.draws, rfl⟩

/-- A host write of IMEM changes IMEM, the words held and the draws. -/
theorem hostWriteImem_frame (i : Nat) (w : Word) (s : State) :
    ∃ st d, hostWriteImem i w s =
      { s with imem := memWriteWord s.imem i w, race := { s.race with stale := st }, draws := d } := by
  obtain ⟨st, d, h⟩ := markStale_frame i s
  exact ⟨st, d, by simp only [hostWriteImem, h]⟩

/-- Everything a host write of OMEM can do: race ahead of the scan position, race behind it, or write the word. -/
theorem hostWriteOmem_cases (i : Nat) (w : Word) (s : State) :
    (s.ahead i = true ∧ hostWriteOmem i w s = s.raceAhead i w) ∨
    (s.ahead i = false ∧ s.inRun i = true ∧ hostWriteOmem i w s = s.raceBehind i w) ∨
    (s.inRun i = false ∧ hostWriteOmem i w s = { s with omem := memWriteWord s.omem i w }) := by
  cases hr : s.inRun i <;> cases ha : s.ahead i <;> simp_all [hostWriteOmem, State.ahead]

/-- What a host write of OMEM leaves: it writes one word of OMEM, and beside it changes only the record of races and the
draws. -/
theorem hostWriteOmem_frame (i : Nat) (w : Word) (s : State) :
    ∃ x k b d, hostWriteOmem i w s =
        { s with omem := memWriteWord s.omem i x, race := { s.race with kept := k, before := b }, draws := d } ∧
      (b = memWriteWord s.race.before i w ∨ b = s.race.before) := by
  rcases hostWriteOmem_cases i w s with ⟨_, h⟩ | ⟨_, _, h⟩ | ⟨_, h⟩ <;> rw [h]
  · exact ⟨_, _, _, _, rfl, .inl rfl⟩
  · exact ⟨_, s.race.kept, _, _, rfl, .inl rfl⟩
  · exact ⟨_, s.race.kept, s.race.before, s.draws, rfl, .inr rfl⟩

/-- The early reply changes only the words held, the replies and the draws. -/
theorem replyEarly_frame (i : Nat) (s : State) :
    ∃ w st d, s.replyEarly i =
      { s with race := { s.race with stale := st }, replies := w :: s.replies, draws := d } := by
  unfold State.replyEarly
  split
  · obtain ⟨st, d, h⟩ := hold_frame i s
    exact ⟨_, st, d, by rw [h]; rfl⟩
  · exact ⟨_, s.race.stale, _, rfl⟩

/-- A host read of either memory changes only the words held, the replies and the draws. -/
theorem hostReadMem_frame (sp : Space) (i : Nat) (s : State) :
    ∃ w st d, hostReadMem sp i s =
      { s with race := { s.race with stale := st }, replies := w :: s.replies, draws := d } := by
  cases sp with
  | imem => exact ⟨_, s.race.stale, _, rfl⟩
  | omem =>
    simp only [hostReadMem, hostReadOmem]
    split
    · split
      · exact ⟨_, s.race.stale, _, rfl⟩
      · split
        · obtain ⟨w, st, d, h⟩ := replyEarly_frame i s.drawCoin
          exact ⟨w, st, d, by rw [h]; rfl⟩
        · exact ⟨_, s.race.stale, _, rfl⟩
    · exact ⟨_, s.race.stale, _, rfl⟩

/-! ### A move, a turn, a step -/

/-- Everything a host move can do when it answers a next state: it is legal, and it is one of the four kinds. -/
theorem hostMove_cases {m : HostMove} {s t : State} (h : hostMove m s = .next t) :
    m.wf s.config.memPixels = true ∧
    ((∃ idx v, m = .writeReg idx v ∧ hostWriteReg idx v s = .next t) ∨
     (∃ idx, m = .readReg idx ∧ t = s.reply (readReg (decodeReg idx) s)) ∨
     (∃ sp i w, m = .writeMem sp i w ∧ t = hostWriteMem sp i w s) ∨
     (∃ sp i, m = .readMem sp i ∧ t = hostReadMem sp i s)) := by
  unfold hostMove at h
  split at h
  · refine ⟨‹_›, ?_⟩
    cases m with
    | writeReg idx v => exact .inl ⟨idx, v, rfl, h⟩
    | readReg idx => exact .inr (.inl ⟨idx, rfl, by simpa [hostReadReg] using h.symm⟩)
    | writeMem sp i w => exact .inr (.inr (.inl ⟨sp, i, w, rfl, by simpa using h.symm⟩))
    | readMem sp i => exact .inr (.inr (.inr ⟨sp, i, rfl, by simpa using h.symm⟩))
  · cases h

/-- Everything a step can do when it answers a next state: the engine's turn, a host move or a reset. -/
theorem step_cases {s t : State} (h : step s = .next t) :
    (s.turns = [] ∧ engineTurn s = .next t) ∨
    (∃ rest, s.turns = .engine :: rest ∧ engineTurn { s with turns := rest } = .next t) ∨
    (∃ m rest, s.turns = .host m :: rest ∧ hostMove m { s with turns := rest } = .next t) ∨
    (∃ rest, s.turns = .reset :: rest ∧ t = { s with turns := rest }.resetEvent) := by
  unfold step nextTurn at h
  split at h
  · exact .inl ⟨‹_›, h⟩
  · rename_i u rest hu
    cases u with
    | host m => exact .inr (.inr (.inl ⟨m, rest, hu, h⟩))
    | engine => exact .inr (.inl ⟨rest, hu, h⟩)
    | reset => exact .inr (.inr (.inr ⟨rest, hu, by simpa [takeTurn] using h.symm⟩))

end Sys2Proof.Machine
end

