-- ==== Sys2Proof/Laws/PerInstr.lean ====
section
/-! SUPPORT. A fact about every instruction as syntax, one lemma per constructor: its encoded word meets the match and
mask of its row of spec/opcode_table.json (R71, R73). -/

namespace Sys2Proof.Laws

/-- The match and mask of an instruction's row. -/
def tableRow : Instr → Nat × Nat
  | .gray => (0x0, 0xF)
  | .pgray => (0x1, 0xF)
  | .rgb2ycbcr => (0x2, 0xF)
  | .ycbcr2rgb => (0x3, 0xF)
  | .rgb2yuv => (0x4, 0xF)
  | .yuv2rgb => (0x5, 0xF)
  | .rgb2xyz => (0x6, 0xF)
  | .xyz2rgb => (0x7, 0xF)
  | .rgb2hls => (0x8, 0xF)
  | .hls2rgb => (0x9, 0xF)
  | .rgb2hsv => (0xA, 0xF)
  | .hsv2rgb => (0xB, 0xF)
  | .rgb2ycocg => (0xC, 0xF)
  | .ycocg2rgb => (0xD, 0xF)
  | .gamma => (0xE, 0xF)
  | .start => (0x1, 0x1)
  | .clr => (0x2, 0x3)

/-- An encoded word as a number. -/
def codeNat : Code → Nat
  | .op4 op => op.toNat
  | .ctrl c => c.toNat

/-- The instruction is well-formed, and its encoded word is well-formed and meets its row. -/
def MeetsRow.Statement (i : Instr) : Prop :=
  i.wf = true ∧ (encode i).wf = true ∧ codeNat (encode i) &&& (tableRow i).2 = (tableRow i).1

theorem MeetsRow.gray : MeetsRow.Statement .gray := by unfold MeetsRow.Statement; decide

theorem MeetsRow.pgray : MeetsRow.Statement .pgray := by unfold MeetsRow.Statement; decide

theorem MeetsRow.rgb2ycbcr : MeetsRow.Statement .rgb2ycbcr := by unfold MeetsRow.Statement; decide

theorem MeetsRow.ycbcr2rgb : MeetsRow.Statement .ycbcr2rgb := by unfold MeetsRow.Statement; decide

theorem MeetsRow.rgb2yuv : MeetsRow.Statement .rgb2yuv := by unfold MeetsRow.Statement; decide

theorem MeetsRow.yuv2rgb : MeetsRow.Statement .yuv2rgb := by unfold MeetsRow.Statement; decide

theorem MeetsRow.rgb2xyz : MeetsRow.Statement .rgb2xyz := by unfold MeetsRow.Statement; decide

theorem MeetsRow.xyz2rgb : MeetsRow.Statement .xyz2rgb := by unfold MeetsRow.Statement; decide

theorem MeetsRow.rgb2hls : MeetsRow.Statement .rgb2hls := by unfold MeetsRow.Statement; decide

theorem MeetsRow.hls2rgb : MeetsRow.Statement .hls2rgb := by unfold MeetsRow.Statement; decide

theorem MeetsRow.rgb2hsv : MeetsRow.Statement .rgb2hsv := by unfold MeetsRow.Statement; decide

theorem MeetsRow.hsv2rgb : MeetsRow.Statement .hsv2rgb := by unfold MeetsRow.Statement; decide

theorem MeetsRow.rgb2ycocg : MeetsRow.Statement .rgb2ycocg := by unfold MeetsRow.Statement; decide

theorem MeetsRow.ycocg2rgb : MeetsRow.Statement .ycocg2rgb := by unfold MeetsRow.Statement; decide

theorem MeetsRow.gamma : MeetsRow.Statement .gamma := by unfold MeetsRow.Statement; decide

theorem MeetsRow.start : MeetsRow.Statement .start := by unfold MeetsRow.Statement; decide

theorem MeetsRow.clr : MeetsRow.Statement .clr := by unfold MeetsRow.Statement; decide

end Sys2Proof.Laws
end

