-- ==== Sys2Proof/Tests/Slice0.lean ====
section
/-! SUPPORT. The model's own tests: ill-formed terms refused, table words decoded, vectors of spec/95_test_vectors.md,
and for every statement with hypotheses a state that meets them. -/

namespace Sys2Proof.Tests

open Sys2Proof Sys2Proof.Machine

/-! ### Well-formedness (each check refuses an ill-formed term) -/

theorem test_wf_refuses_reserved_code : (Code.op4 15#4).wf = false := by decide
theorem test_wf_accepts_last_code : (Code.op4 14#4).wf = true := by decide
theorem test_wf_refuses_word_without_command : (Code.ctrl 0xFFFFFFFC#32).wf = false := by decide
theorem test_wf_refuses_write_beyond_memory : (HostMove.writeMem .imem 9 0#32).wf 9 = false := by decide
theorem test_wf_refuses_read_beyond_memory : (HostMove.readMem .omem 9).wf 9 = false := by decide
theorem test_wf_accepts_last_word : (HostMove.writeMem .omem 8 0#32).wf 9 = true := by decide
theorem test_wf_refuses_turn_beyond_memory : (Turn.host (.readMem .imem 9)).wf 9 = false := by decide
theorem test_wf_config_refuses_empty_memory : ¬ ({ Config.default with memPixels := 0 } : Config).wf := by decide
theorem test_wf_config_refuses_zero_denominator :
    ¬ ({ Config.default with xyzFwd := { Config.defaultFwd with row1 := ⟨1, 1, 1, 0⟩ } } : Config).wf := by decide
theorem test_wf_config_default : Config.default.wf := by decide
theorem test_wf_memory_refuses_falling_addresses : ¬ Mem.wf [(4, 0#8), (3, 0#8)] := by decide

/-! ### Decoding: every row of the table, its word written out in binary (R71, R73) -/

theorem test_decode_gray : decode (.op4 0b0000#4) = .instr .gray := by decide
theorem test_decode_pgray : decode (.op4 0b0001#4) = .instr .pgray := by decide
theorem test_decode_rgb2ycbcr : decode (.op4 0b0010#4) = .instr .rgb2ycbcr := by decide
theorem test_decode_ycbcr2rgb : decode (.op4 0b0011#4) = .instr .ycbcr2rgb := by decide
theorem test_decode_rgb2yuv : decode (.op4 0b0100#4) = .instr .rgb2yuv := by decide
theorem test_decode_yuv2rgb : decode (.op4 0b0101#4) = .instr .yuv2rgb := by decide
theorem test_decode_rgb2xyz : decode (.op4 0b0110#4) = .instr .rgb2xyz := by decide
theorem test_decode_xyz2rgb : decode (.op4 0b0111#4) = .instr .xyz2rgb := by decide
theorem test_decode_rgb2hls : decode (.op4 0b1000#4) = .instr .rgb2hls := by decide
theorem test_decode_hls2rgb : decode (.op4 0b1001#4) = .instr .hls2rgb := by decide
theorem test_decode_rgb2hsv : decode (.op4 0b1010#4) = .instr .rgb2hsv := by decide
theorem test_decode_hsv2rgb : decode (.op4 0b1011#4) = .instr .hsv2rgb := by decide
theorem test_decode_rgb2ycocg : decode (.op4 0b1100#4) = .instr .rgb2ycocg := by decide
theorem test_decode_ycocg2rgb : decode (.op4 0b1101#4) = .instr .ycocg2rgb := by decide
theorem test_decode_gamma : decode (.op4 0b1110#4) = .instr .gamma := by decide
theorem test_decode_reserved : decode (.op4 0b1111#4) = .rejected .reservedOp := by decide
theorem test_decode_start : decode (.ctrl 0b00000000000000000000000000000001#32) = .instr .start := by decide
theorem test_decode_start_over_clr : decode (.ctrl 0b11111111111111111111111111111111#32) = .instr .start := by decide
theorem test_decode_clr : decode (.ctrl 0b11111111111111111111111111111110#32) = .instr .clr := by decide
theorem test_decode_no_command : decode (.ctrl 0b11111111111111111111111111111100#32) = .rejected .noCommand := by decide

/-! ### States for the tests -/

/-- An idle machine with a memory of nine words. -/
def idle : State :=
  { op := 0#4, width := 0#16, height := 0#16, status := 0#3, errcode := 0#2, scanx := 0#16, scany := 0#16
    pin := ⟨0#8, 0#8, 0#8, 0#8⟩, pout := ⟨0#8, 0#8, 0#8, 0#8⟩, imem := [], omem := []
    config := { Config.default with memPixels := 9 }, race := RaceBook.none, draws := 8, turns := [], replies := [] }

/-- An idle machine with the default parameters. -/
def idleBig : State := { idle with config := Config.default }

/-- A 1 by 1 run of operation `op` about to take its pixel step on the word `w`. -/
def onePixel (op : BitVec 4) (w : Word) : State :=
  { idle with op := op, width := 1#16, height := 1#16, status := 1#3, imem := memWriteWord [] 0 w }

/-- The word that one step stores for the word `w` under operation `op`. -/
def pixelOut (op : BitVec 4) (w : Word) : Option Word :=
  match step (onePixel op w) with
  | .next t => some (memWord t.omem 0 0)
  | _ => none

/-- What one step makes of a field of the state; none where it stops. -/
def after {α : Type} (f : State → α) (s : State) : Option α :=
  match step s with
  | .next t => some (f t)
  | _ => none

/-- A state whose next turn is the host move `m`. -/
def moving (s : State) (m : HostMove) : State := { s with turns := [.host m] }

/-- STATUS, ERRCODE and the scan position. -/
def report (s : State) : BitVec 3 × BitVec 2 × Half × Half := (s.status, s.errcode, s.scanx, s.scany)

/-- A 2 by 2 GRAY run that has done its first pixel, with IMEM filled. -/
def midRun : State :=
  { idle with
    width := 2#16, height := 2#16, status := 1#3, scanx := 1#16
    imem := memWriteWord (memWriteWord (memWriteWord (memWriteWord [] 0 0xFF0000FF#32) 1 0x8000FF00#32)
      2 0x00FF0000#32) 3 0x281E140A#32
    omem := memWriteWord [] 0 0xFF4C4C4C#32
    race := { RaceBook.none with stored := memWriteWord [] 0 0xFF4C4C4C#32 } }

/-- The same run at its start. -/
def runStart : State := { midRun with scanx := 0#16, omem := [], race := RaceBook.none }

/-- The same machine before the run, at the START of the run. -/
def beforeStart : State := { runStart with status := 0#3, turns := [.host (.writeReg 0#3 1#32)] }

/-- The same run with its finish step enabled. -/
def atFinish : State :=
  { midRun with
    scanx := 0#16, scany := 2#16
    race := { RaceBook.none with
      stored := memWriteWord (memWriteWord (memWriteWord (memWriteWord [] 0 0xFF4C4C4C#32) 1 0x80959595#32)
        2 0x001D1D1D#32) 3 0x28121212#32 } }

/-! ### One pixel step of each operation (spec/95_test_vectors.md; the source of each vector beside it) -/

theorem test_gray_a : pixelOut 0#4 0xFF0000FF#32 = some 0xFF4C4C4C#32 := by decide -- S1
theorem test_gray_b : pixelOut 0#4 0x281E140A#32 = some 0x28121212#32 := by decide -- Part 2
theorem test_pgray_a : pixelOut 1#4 0xFF0000FF#32 = some 0xFF7F7F7F#32 := by decide -- Part 2
theorem test_pgray_b : pixelOut 1#4 0x281E140A#32 = some 0x284C4C4C#32 := by decide -- Part 2
theorem test_rgb2ycbcr_a : pixelOut 2#4 0xFF0000FF#32 = some 0xFFEF5A51#32 := by decide -- Part 2
theorem test_rgb2ycbcr_b : pixelOut 2#4 0x003264C8#32 = some 0x00AF5B7A#32 := by decide -- Part 2
theorem test_ycbcr2rgb_a : pixelOut 3#4 0x4D808010#32 = some 0x4D000000#32 := by decide -- Part 2
theorem test_ycbcr2rgb_b : pixelOut 3#4 0x003264C8#32 = some 0x009DFF59#32 := by decide -- Part 2
theorem test_rgb2yuv_a : pixelOut 4#4 0xFF0000FF#32 = some 0xFFFF5A5C#32 := by decide -- Part 2
theorem test_rgb2yuv_b : pixelOut 4#4 0x003264C8#32 = some 0x00C25B8C#32 := by decide -- Part 2
theorem test_yuv2rgb_a : pixelOut 5#4 0x018080EB#32 = some 0x01DBDBDB#32 := by decide -- Part 2
theorem test_yuv2rgb_b : pixelOut 5#4 0x003264C8#32 = some 0x007FF05F#32 := by decide -- Part 2
theorem test_rgb2xyz_a : pixelOut 6#4 0xFFFFFF00#32 = some 0xFFFFC889#32 := by decide -- Part 2
theorem test_rgb2xyz_b : pixelOut 6#4 0x003264C8#32 = some 0x003F757F#32 := by decide -- Part 2
theorem test_xyz2rgb_a : pixelOut 7#4 0x1120C040#32 = some 0x1100FF00#32 := by decide -- Part 2
theorem test_xyz2rgb_b : pixelOut 7#4 0x4D808010#32 = some 0x4D6EE500#32 := by decide -- Part 2
theorem test_rgb2hls_a : pixelOut 8#4 0xFF808080#32 = some 0xFF008000#32 := by decide -- S4
theorem test_rgb2hls_b : pixelOut 8#4 0x018080EB#32 = some 0x01B9B500#32 := by decide -- Part 2
theorem test_hls2rgb_a : pixelOut 9#4 0x281E140A#32 = some 0x28111216#32 := by decide -- Part 2
theorem test_hls2rgb_b : pixelOut 9#4 0x018080EB#32 = some 0x017C40C0#32 := by decide -- Part 2
theorem test_rgb2hsv_a : pixelOut 10#4 0xFF0000FF#32 = some 0xFFFFFF00#32 := by decide -- S2
theorem test_rgb2hsv_b : pixelOut 10#4 0x1120C040#32 = some 0x11C0D44C#32 := by decide -- Part 2
theorem test_hsv2rgb_a : pixelOut 11#4 0xC88080FF#32 = some 0xC83F3F80#32 := by decide -- Part 2
theorem test_hsv2rgb_b : pixelOut 11#4 0x1120C040#32 = some 0x11072013#32 := by decide -- Part 2
theorem test_rgb2ycocg_a : pixelOut 12#4 0xFF0000FF#32 = some 0xFF008040#32 := by decide -- P4
theorem test_rgb2ycocg_b : pixelOut 12#4 0x1120C040#32 = some 0x11481078#32 := by decide -- Part 2
theorem test_ycocg2rgb_a : pixelOut 13#4 0xFF008040#32 = some 0xFF0040C0#32 := by decide -- R173
theorem test_ycocg2rgb_b : pixelOut 13#4 0x1120C040#32 = some 0x110060E0#32 := by decide -- Part 2
theorem test_gamma_a : pixelOut 14#4 0xFF000000#32 = some 0xFF000000#32 := by decide -- S3
theorem test_gamma_b : pixelOut 14#4 0x003264C8#32 = some 0x006D9EE1#32 := by decide -- Part 2

/-! ### The scan, the finish step and the packing (program P1) -/

theorem test_scan_next_row : after (fun t => (t.scanx, t.scany)) midRun = some (0#16, 1#16) := by decide
theorem test_scan_next_column : after (fun t => (t.scanx, t.scany)) runStart = some (1#16, 0#16) := by decide
theorem test_second_pixel : after (fun t => memWord t.omem 1 0) midRun = some 0x80959595#32 := by decide
theorem test_first_word_kept : after (fun t => memWord t.omem 0 0) midRun = some 0xFF4C4C4C#32 := by decide
theorem test_finish : after report atFinish = some (2#3, 0#2, 0#16, 2#16) := by decide

/-! ### Registers and commands (Part 5) -/

theorem test_write_op_drops_bits :
    after (·.op) (moving idle (.writeReg 1#3 0xFFFFFFF3#32)) = some 3#4 := by decide
theorem test_write_width_drops_bits :
    after (·.width) (moving idle (.writeReg 2#3 0x12345#32)) = some 0x2345#16 := by decide
theorem test_write_height_drops_bits :
    after (·.height) (moving idle (.writeReg 3#3 0xFFFFFFFF#32)) = some 65535#16 := by decide
theorem test_write_status_ignored :
    after report (moving { idle with status := 2#3, scany := 2#16 } (.writeReg 4#3 0xFFFFFFFF#32)) =
      some (2#3, 0#2, 0#16, 2#16) := by decide
theorem test_write_scany_ignored :
    after report (moving { idle with status := 2#3, scany := 2#16 } (.writeReg 7#3 0xFFFFFFFF#32)) =
      some (2#3, 0#2, 0#16, 2#16) := by decide
theorem test_write_op_ignored_in_run :
    after (·.op) (moving { midRun with op := 3#4 } (.writeReg 1#3 7#32)) = some 3#4 := by decide
theorem test_read_scanx_in_run : after (·.replies) (moving midRun (.readReg 6#3)) = some [1#32] := by decide
theorem test_read_status_of_error :
    after (fun t => (t.replies, t.status)) (moving { idle with status := 4#3, errcode := 1#2 } (.readReg 4#3)) =
      some ([4#32], 4#3) := by decide
theorem test_start_at_the_limit :
    after report (moving { idleBig with op := 14#4, width := 4096#16, height := 4096#16 } (.writeReg 0#3 1#32)) =
      some (1#3, 0#2, 0#16, 0#16) := by decide
theorem test_start_above_the_limit :
    after report (moving { idleBig with op := 14#4, width := 4097#16, height := 4096#16 } (.writeReg 0#3 1#32)) =
      some (4#3, 2#2, 0#16, 0#16) := by decide
theorem test_start_illegal_before_size :
    after report (moving { idleBig with op := 15#4, width := 65535#16, height := 65535#16 } (.writeReg 0#3 1#32)) =
      some (4#3, 1#2, 0#16, 0#16) := by decide
theorem test_start_in_run_ignored :
    after report (moving midRun (.writeReg 0#3 1#32)) = some (1#3, 0#2, 1#16, 0#16) := by decide
theorem test_clr_keeps_position :
    after report (moving { idle with status := 2#3, scany := 1#16 } (.writeReg 0#3 0xFFFFFFFE#32)) =
      some (0#3, 0#2, 0#16, 1#16) := by decide
theorem test_clr_in_run_ignored :
    after report (moving midRun (.writeReg 0#3 2#32)) = some (1#3, 0#2, 1#16, 0#16) := by decide
theorem test_host_reads_omem : after (·.replies) (moving midRun (.readMem .imem 3)) = some [0x281E140A#32] := by decide
theorem test_host_beyond_memory_refused :
    step (moving idle (.readMem .omem 9)) = .refused .hostIndexOutOfRange := by rfl

/-! ### Placed words run at the very next step -/

theorem test_placed_gamma : after (·.scany) (idle.withFetchWord 8 14) = some 1#16 := by decide
theorem test_placed_start : after (·.status) (idle.withFetchWord 32 1) = some 1#3 := by decide

/-! ### Witnesses: states that meet the statements' hypotheses, clause by clause -/

theorem midRun_inv : midRun.Inv := by constructor <;> decide
theorem runStart_inv : runStart.Inv := by constructor <;> decide
theorem atFinish_inv : atFinish.Inv := by constructor <;> decide
theorem idle_inv : idle.Inv := by constructor <;> decide
theorem onePixel_ready : (onePixel 0#4 0#32).pixelReady := ⟨by decide, by decide⟩

/-- The last pixel of a memory that the raster fills: the boundary of the index. -/
def lastPixel : State :=
  { idle with width := 3#16, height := 3#16, status := 1#3, scanx := 2#16, scany := 2#16 }

theorem midRun_ready : midRun.pixelReady := ⟨by decide, by decide⟩
theorem lastPixel_ready : lastPixel.pixelReady ∧ lastPixel.scanIndex = 8 := ⟨⟨by decide, by decide⟩, by decide⟩
theorem config_and_pixel_ready : midRun.config.wf ∧ midRun.pixelReady := ⟨by decide, midRun_ready⟩

/-- CommandWordIsReadByItsTwoBits: a word for each clause. -/
theorem witness_command_words :
    3#32 &&& 1#32 = 1#32 ∧ 0xFFFFFFFE#32 &&& 3#32 = 2#32 ∧ 0xFFFFFFFC#32 &&& 3#32 = (0#32 : Word) ∧
    0xFFFFFFFE#32 &&& 3#32 = 2#32 &&& (3#32 : Word) := by decide

/-- QuantiserEqualities: the smallest divisor and the boundary dividends. -/
theorem witness_quotients :
    (0 : Int) < 1 ∧ (0 : Int) ≤ 0 ∧ quantDiv (-1) 1 = 0#8 ∧ quantDiv 256 1 = 255#8 ∧
    quantDiv (-999) 1000 = 0#8 := by decide

/-- EngineStepRunsTheDecodedTransform: no turn left, and a listed engine turn. -/
theorem witness_engine_step :
    (midRun.pixelEnabled = true ∧ decode (.op4 midRun.op) = .instr .gray ∧ midRun.turns = []) ∧
    ({ midRun with turns := [.engine] } : State).turns = .engine :: [] := by decide

/-- ControlWriteRunsTheDecodedCommand: a command and a word without one. -/
theorem witness_control_write :
    ({ idle with turns := [.reset] } : State).turns = .reset :: [] ∧
    (moving idle (.writeReg 0#3 1#32)).turns = .host (.writeReg 0#3 1#32) :: [] ∧
    decode (.ctrl 1#32) = .instr .start ∧ decode (.ctrl 0#32) = .rejected .noCommand := by decide

/-- PlacedWordRunsNext: a word of each format. -/
theorem witness_placed_words :
    decodeTableWord 8 14 = some .gamma ∧ decodeTableWord 32 1 = some .start := by decide

/-- OneEngineStepIsEnabledWhileBusy: each step enabled, and neither. -/
theorem witness_enabled_steps :
    midRun.Inv ∧ midRun.busy = true ∧ midRun.pixelEnabled = true ∧ atFinish.finishEnabled = true ∧
    idle.busy = false ∧ idle.turns = [] :=
  ⟨midRun_inv, by decide, by decide, by decide, by decide, by decide⟩

/-- FinishStepEndsTheRun: a run at its end, and an empty raster in each of its two forms. -/
theorem witness_finish :
    (atFinish.finishEnabled = true ∧ atFinish.turns = [] ∧ atFinish.Inv) ∧
    (idle.busy = false ∧ idle.op ≠ 15#4 ∧ ({ idle with height := 5#16 } : State).rasterSize = 0 ∧
      ({ idle with width := 5#16 } : State).rasterSize = 0 ∧ idle.turns = []) :=
  ⟨⟨by decide, by decide, atFinish_inv⟩, by decide, by decide, by decide, by decide, by decide⟩

/-- PGRAY's curve at its two ends, one in each branch. -/
theorem witness_srgb_curve : IsSrgbCurve 0 0 ∧ IsSrgbCurve 1 1 := by
  refine ⟨⟨fun _ => by norm_num, fun h => absurd h (by norm_num)⟩, ⟨fun h => absurd h (by norm_num), fun _ => ?_⟩⟩
  rw [Real.one_rpow]; norm_num

/-- PGRAY's curve at the end of its linear branch. -/
theorem witness_srgb_boundary : IsSrgbCurve (31308 / 10000000) (1292 / 100 * (31308 / 10000000)) :=
  ⟨fun _ => rfl, fun h => absurd h (lt_irrefl _)⟩

/-- GAMMA's curve at its two ends, one in each branch. -/
theorem witness_bt709_curve : IsBt709Curve 0 0 ∧ IsBt709Curve 1 1 := by
  refine ⟨⟨fun _ => by norm_num, fun h => absurd h (by norm_num)⟩, ⟨fun h => absurd h (by norm_num), fun _ => ?_⟩⟩
  rw [Real.one_rpow]; norm_num

/-- GAMMA's curve at the start of its power branch. -/
theorem witness_bt709_boundary :
    IsBt709Curve (18 / 1000) (1099 / 1000 * (18 / 1000 : ℝ) ^ (9 / 20 : ℝ) - 99 / 1000) :=
  ⟨fun h => absurd h (lt_irrefl _), fun _ => rfl⟩

/-- GammaTableIsTheCurve: the first and the last entry, on the curve of `witness_bt709_curve`. -/
theorem witness_gamma_entries :
    (0 < 256 ∧ IsBt709Curve ((0 : Nat) / 255) 0) ∧ (255 < 256 ∧ IsBt709Curve ((255 : Nat) / 255) 1) := by
  refine ⟨⟨by norm_num, ?_⟩, by norm_num, ?_⟩
  · simpa using witness_bt709_curve.1
  · have h : (((255 : Nat) : ℝ) / 255) = 1 := by norm_num
    rw [h]; exact witness_bt709_curve.2

/-- PgrayThresholdsAreTheCurve: the first and the last threshold, the smallest and the largest numerator. -/
theorem witness_pgray_entries :
    (1 ≤ 1 ∧ 1 ≤ 255 ∧ 0 ≤ 2550000 ∧ IsSrgbCurve ((0 : Nat) / 2550000) 0) ∧
    (1 ≤ 255 ∧ 255 ≤ 255 ∧ 2550000 ≤ 2550000 ∧ IsSrgbCurve ((2550000 : Nat) / 2550000) 1) := by
  refine ⟨⟨by norm_num, by norm_num, by norm_num, ?_⟩, by norm_num, by norm_num, by norm_num, ?_⟩
  · simpa using witness_srgb_curve.1
  · have h : (((2550000 : Nat) : ℝ) / 2550000) = 1 := by norm_num
    rw [h]; exact witness_srgb_curve.2

/-- The curve of the black pixel and of the white one: PgrayStoresTheEncodedLuminance. -/
theorem witness_pgray_pixel :
    IsSrgbCurve (2126 / 10000 * (((0#8 : Byte).toNat : ℝ) / 255) + 7152 / 10000 * (((0#8 : Byte).toNat : ℝ) / 255) +
      722 / 10000 * (((0#8 : Byte).toNat : ℝ) / 255)) 0 ∧ (onePixel 1#4 0#32).pixelReady := by
  refine ⟨?_, ⟨by decide, by decide⟩⟩
  simpa using witness_srgb_curve.1

/-- GammaStoresTheCurveOfEachChannel: the white pixel, every channel at the end of the curve. -/
theorem witness_gamma_pixel :
    IsBt709Curve (((255#8 : Byte).toNat : ℝ) / 255) 1 ∧ (onePixel 14#4 0xFFFFFFFF#32).pixelReady := by
  refine ⟨?_, ⟨by decide, by decide⟩⟩
  have h : (((255#8 : Byte).toNat : ℝ) / 255) = 1 := by norm_num
  rw [h]; exact witness_bt709_curve.2

/-- AlphaIsCopiedByEveryPixelStep. -/
theorem witness_alpha :
    midRun.pixelEnabled = true ∧ midRun.scanIndex ∉ midRun.race.kept ∧ midRun.turns = [] ∧
    (after (·.op) midRun).isSome = true := by decide

/-- TransformsArePure: two pixel steps in different states with the same input colours. -/
theorem witness_pure :
    (onePixel 0#4 0xFF0000FF#32).config = (onePixel 9#4 0x000000FF#32).config ∧
    (unpack 0xFF0000FF#32).colour = (unpack 0x000000FF#32).colour ∧
    (onePixel 0#4 0xFF0000FF#32).pixelEnabled = true ∧ (onePixel 9#4 0x000000FF#32).pixelEnabled = true := by decide

/-- TransformsOutsideTheirStep: a state for each clause. -/
theorem witness_outside_their_step :
    idle.pixelEnabled = false ∧
    (({ lastPixel with height := 4#16, scanx := 0#16, scany := 3#16 } : State).pixelEnabled = true ∧
      9 ≤ ({ lastPixel with height := 4#16, scanx := 0#16, scany := 3#16 } : State).scanIndex) ∧
    (({ midRun with op := 15#4 } : State).pixelEnabled = true ∧ ({ midRun with op := 15#4 } : State).turns = []) ∧
    midRun.Inv ∧ midRun.pixelEnabled = true :=
  ⟨by decide, ⟨by decide, by decide⟩, ⟨by decide, by decide⟩, midRun_inv, by decide⟩

/-- StartBeginsARun and RefusedStartReportsOneError: each clause, the size at its limit and just above it. -/
theorem witness_start :
    midRun.busy = true ∧
    (idle.busy = false ∧ ({ idle with op := 14#4 } : State).op ≠ 15#4 ∧
      ({ idle with width := 9#16, height := 1#16 } : State).rasterSize = idle.config.memPixels) ∧
    (({ idle with op := 15#4 } : State).busy = false ∧ ({ idle with op := 15#4 } : State).op = 15#4) ∧
    idle.config.memPixels < ({ idle with width := 5#16, height := 2#16 } : State).rasterSize := by decide

/-- ClrClearsTheReport: a run, and a report to clear. -/
theorem witness_clr : midRun.busy = true ∧ ({ idle with status := 4#3, errcode := 2#2 } : State).busy = false := by
  decide

/-- RegisterWriteRule: a turn for each clause. -/
theorem witness_register_write :
    midRun.busy = true ∧ idle.busy = false ∧
    (3#32 : Word).getLsbD 0 = true ∧
    ((2#32 : Word).getLsbD 0 = false ∧ (2#32 : Word).getLsbD 1 = true) ∧
    ((0xFFFFFFFC#32 : Word).getLsbD 0 = false ∧ (0xFFFFFFFC#32 : Word).getLsbD 1 = false) ∧
    4 ≤ (4#3 : BitVec 3).toNat ∧ 4 ≤ (7#3 : BitVec 3).toNat := by decide

/-- RegisterReadRule: the first and the last register, in a run. -/
theorem witness_register_read :
    after (·.replies) (moving midRun (.readReg 0#3)) = some [0#32] ∧
    after (·.replies) (moving midRun (.readReg 7#3)) = some [0#32] := by decide

/-- HostAccessToImem: a legal write and read at the ends of the memory, and the first illegal index. -/
theorem witness_imem_access :
    (moving midRun (.writeMem .imem 8 0#32)).turns = .host (.writeMem .imem 8 0#32) :: [] ∧
    8 < midRun.config.memPixels ∧ 0 < midRun.config.memPixels ∧ memWritten midRun.imem 0 = true ∧
    midRun.config.memPixels ≤ 9 := by decide

/-- HostAccessToOmem: an idle engine, and an index outside the raster of a run. -/
theorem witness_omem_access :
    idle.inRun 8 = false ∧ ({ midRun with omem := memWriteWord [] 4 0#32 } : State).inRun 4 = false ∧
    memWritten ({ midRun with omem := memWriteWord [] 4 0#32 } : State).omem 4 = true ∧ 4 < midRun.config.memPixels ∧
    idle.config.memPixels ≤ 9 := by decide

/-- IndicesStayInTheMemory. -/
theorem witness_indices :
    (midRun.Inv ∧ midRun.pixelEnabled = true) ∧ (HostMove.readMem .omem 9).wf idle.config.memPixels = false :=
  ⟨⟨midRun_inv, by decide⟩, by decide⟩

/-- RacingAccessHasOneOfItsOutcomes: the first and the last word ahead of the scan position, and one that is stored. -/
theorem witness_races :
    midRun.ahead midRun.scanIndex = true ∧ midRun.ahead 3 = true ∧ midRun.inRun 3 = true ∧ midRun.inRun 0 = true ∧
    midRun.ahead 0 = false ∧ memWritten midRun.race.stored 0 = true ∧ 3 < midRun.config.memPixels ∧
    staleWord midRun.race.stale 3 = none ∧ (runFunction midRun).isSome = true := by decide

/-- RacingAccessHasOneOfItsOutcomes: a word the engine holds. -/
theorem witness_race_held :
    ({ midRun with race := { midRun.race with stale := [(3, 7#32)] } } : State).ahead 3 = true ∧
    staleWord ({ midRun with race := { midRun.race with stale := [(3, 7#32)] } } : State).race.stale 3 = some 7#32 := by
  decide

/-- A racing write that remains is not overwritten by the pixel step (PixelStepResult.kept). -/
theorem test_kept_word_stays :
    after (fun t => (memWord t.omem 1 0, memWord t.race.stored 1 0))
      { midRun with
        omem := memWriteWord midRun.omem 1 7#32
        race := { midRun.race with kept := [1] } } = some (7#32, 0x80959595#32) := by decide

/-- HostAccessToImem and HostAccessToOmem: a word nobody has written. -/
theorem witness_unwritten_read : memWritten midRun.imem 8 = false ∧ midRun.inRun 8 = false := by decide

/-- ResetEventClearsTheRegisters. -/
theorem witness_reset : ({ midRun with turns := [.reset, .engine] } : State).turns = .reset :: [.engine] := by decide

/-- EveryStepKeepsTheInvariant, in a run and out of one. -/
theorem witness_invariant_step :
    (midRun.Inv ∧ (after (·.op) midRun).isSome = true) ∧ (idle.Inv ∧ (after (·.op) idle).isSome = true) :=
  ⟨⟨midRun_inv, by decide⟩, idle_inv, by decide⟩

/-- LegalTurnsAlwaysComplete, with a turn of each kind. -/
theorem witness_legal_turns :
    ({ midRun with turns := [.host (.writeMem .imem 8 0#32), .engine, .reset] } : State).Inv ∧
    ∀ u ∈ ({ midRun with turns := [.host (.writeMem .imem 8 0#32), .engine, .reset] } : State).turns,
      u.wf midRun.config.memPixels = true :=
  ⟨by constructor <;> decide, by decide⟩

/-- OnlyTheHostWritesImem: a write that changes IMEM. -/
theorem witness_imem_changes :
    after (fun t => decide (t.imem ≠ idle.imem)) (moving idle (.writeMem .imem 0 1#32)) = some true := by decide

/-- OnlyTheseEventsWriteStatus: a finish step, a command and a reset that change it. -/
theorem witness_status_changes :
    after (fun t => decide (t.status ≠ atFinish.status)) atFinish = some true ∧
    after (fun t => decide (t.status ≠ idle.status)) (moving idle (.writeReg 0#3 1#32)) = some true ∧
    after (fun t => decide (t.status ≠ midRun.status)) { midRun with turns := [.reset] } = some true := by decide

/-- RunKeepsItsConfiguration: a turn of a run, and its last. -/
theorem witness_run_turn :
    midRun.busy = true ∧ midRun.turns = [] ∧ (after (·.op) midRun).isSome = true ∧
    after (·.busy) atFinish = some false := by decide

theorem runStart_filled : runStart.filled := by unfold State.filled; decide

/-- OmemFollowsTheScan: a START that begins a run, and the first pixel of one. -/
theorem witness_scan_follows :
    (beforeStart.busy = false ∧ after (·.busy) beforeStart = some true) ∧
    (runStart.Inv ∧ runStart.busy = true ∧ runStart.race.stale = [] ∧ runStart.race.kept = [] ∧ runStart.filled ∧
      runFunction runStart = some (pixelFunction grayColour) ∧ runStart.behindScan (pixelFunction grayColour) ∧
      runStart.turns = [] ∧ after (·.busy) runStart = some true ∧
      turnKeepsDuties 9 (.host (.readMem .imem 8)) = true) :=
  ⟨⟨by decide, by decide⟩, runStart_inv, by decide, by decide, by decide, runStart_filled, rfl,
    ⟨fun i hi => absurd hi (by have : runStart.scanIndex = 0 := by decide
                               omega), fun _ _ _ => rfl⟩, by decide, by decide, by decide⟩

/-- RunTransformsTheWholeRaster. -/
theorem witness_whole_run :
    beforeStart.turns = [.host (.writeReg 0#3 1#32)] ∧ beforeStart.busy = false ∧
    beforeStart.rasterSize ≤ beforeStart.config.memPixels ∧ beforeStart.filled ∧
    runFunction beforeStart = some (pixelFunction grayColour) :=
  ⟨by decide, by decide, by decide, runStart_filled, rfl⟩

/-- NormalSequenceConvertsTheRaster: the shortest sequence, over one pixel that fills nothing else. -/
theorem witness_normal_sequence :
    idle.busy = false ∧ [0xFF0000FF#32].length = (1#16 : Half).toNat * (1#16 : Half).toNat ∧
    [0xFF0000FF#32].length ≤ idle.config.memPixels ∧ decode (.op4 14#4) = .instr .gamma ∧
    transformOf idle.config .gamma = some gammaColour ∧
    ({ idle with turns := fillTurns [0xFF0000FF#32] ++ setupTurns 14#4 1#16 1#16 ++ [startTurn] } : State).turns =
      [.host (.writeMem .imem 0 0xFF0000FF#32), .host (.writeReg 1#3 14#32), .host (.writeReg 2#3 1#32),
       .host (.writeReg 3#3 1#32), .host (.writeReg 0#3 1#32)] :=
  ⟨by decide, by decide, by decide, by decide, rfl, by decide⟩

/-- NormalSequenceConvertsTheRaster: an empty raster, and one that fills the memory. -/
theorem witness_normal_sequence_bounds :
    (([] : List Word).length = (0#16 : Half).toNat * (5#16 : Half).toNat) ∧
    ((List.replicate 9 0#32).length = (3#16 : Half).toNat * (3#16 : Half).toNat ∧
      (List.replicate 9 0#32).length ≤ idle.config.memPixels) := by decide

/-- ByteViewIsLittleEndian: the first and the last byte of a word (R47). -/
theorem witness_byte_view :
    memByte (memWriteWord [] 1 0x281E140A#32) 4 = some 0x0A#8 ∧
    memByte (memWriteWord [] 1 0x281E140A#32) 7 = some 0x28#8 ∧
    memWord (memSetByte (memWriteWord [] 1 0x281E140A#32) 7 0xFF#8) 1 0 = 0xFF1E140A#32 := by decide

/-- The turns of a dutiful host beside the four pixel steps of `runStart`. -/
def dutifulTurns : List Turn :=
  [.host (.readReg 6#3), .engine, .host (.writeReg 1#3 7#32), .engine, .engine, .host (.readMem .imem 8), .engine,
   .host (.writeReg 0#3 1#32)]

/-- RunIsUndisturbedByADutifulHost. -/
theorem witness_dutiful_host :
    ({ runStart with turns := dutifulTurns ++ [.engine] } : State).Inv ∧ runStart.busy = true ∧
    runStart.scanx = 0#16 ∧ runStart.scany = 0#16 ∧ runStart.race.stale = [] ∧ runStart.race.kept = [] ∧
    runStart.filled ∧ runFunction runStart = some (pixelFunction grayColour) ∧
    (∀ u ∈ dutifulTurns, turnKeepsDuties runStart.config.memPixels u = true) ∧
    dutifulTurns.count .engine = runStart.rasterSize :=
  ⟨by constructor <;> decide, by decide, by decide, by decide, by decide, by decide, runStart_filled, rfl, by decide,
    by decide⟩

/-- YcbcrStaysInItsDigitalRange and HueDecoderCornerCases: a gray, and the hue bytes at the sector boundaries. -/
theorem witness_colours :
    (⟨255#8, 255#8, 255#8⟩ : Colour).c1 = (⟨255#8, 255#8, 255#8⟩ : Colour).c2 ∧
    sectorOfIndex (6 * 42 / 255) = .s0 ∧ sectorOfIndex (6 * 43 / 255) = .s1 ∧ sectorOfIndex (6 * 85 / 255) = .s2 ∧
    sectorOfIndex (6 * 128 / 255) = .s3 ∧ sectorOfIndex (6 * 170 / 255) = .s4 ∧ sectorOfIndex (6 * 213 / 255) = .s5 ∧
    sectorOfIndex (6 * 254 / 255) = .s5 := by decide

end Sys2Proof.Tests
end

/-! PROOF SUPPORT. One turn at a time, what a step leaves unchanged: the equations of a step by the kind of its turn,
the conditions of the engine's steps as propositions, and the frames of the engine's turn and of the host's moves. -/

namespace Sys2Proof.Machine

/-! ### A step by the kind of its turn (R190, R235) -/

/-- The engine has the next turn: it is listed, or no turn is (log entry 1). -/
def State.engineNext (s : State) : Prop := s.turns = [] ∨ ∃ rest, s.turns = .engine :: rest

theorem step_host {s : State} {m : HostMove} {rest : List Turn} (h : s.turns = .host m :: rest) :
    step s = hostMove m { s with turns := rest } := by
  simp only [step, nextTurn, h, takeTurn]

theorem step_reset {s : State} {rest : List Turn} (h : s.turns = .reset :: rest) :
    step s = .next { s with turns := rest }.resetEvent := by
  simp only [step, nextTurn, h, takeTurn]

/-- `step_cases` with the two forms of the engine's turn as one: every turn is taken in the state with the turn used
up. -/
theorem step_kinds {s t : State} (h : step s = .next t) :
    ∃ rest, (s.engineNext ∧ engineTurn { s with turns := rest } = .next t) ∨
      (∃ m, s.turns = .host m :: rest ∧ hostMove m { s with turns := rest } = .next t) ∨
      (s.turns = .reset :: rest ∧ t = { s with turns := rest }.resetEvent) := by
  rcases step_cases h with ⟨hn, he⟩ | ⟨rest, hn, he⟩ | ⟨m, rest, hn, hm⟩ | ⟨rest, hn, ht⟩
  · exact ⟨[], .inl ⟨.inl hn, by rw [← hn]; exact he⟩⟩
  · exact ⟨rest, .inl ⟨.inr ⟨rest, hn⟩, he⟩⟩
  · exact ⟨rest, .inr (.inl ⟨m, hn, hm⟩)⟩
  · exact ⟨rest, .inr (.inr ⟨hn, ht⟩)⟩

/-! ### A register write (R25, R191) -/

theorem hostMove_writeReg (idx : BitVec 3) (v : Word) (s : State) :
    hostMove (.writeReg idx v) s = hostWriteReg idx v s := by
  simp only [hostMove, HostMove.wf, if_true]

/-- A write to CTRL runs the command its word decodes to. -/
theorem hostWriteReg_command {v : Word} {i : Instr} (h : decode (.ctrl v) = .instr i) (s : State) :
    hostWriteReg 0#3 v s = exec i s := by
  have hr : decodeReg 0#3 = .ctrl := rfl
  simp only [hostWriteReg, hr, h]

/-- A write to CTRL of a word without a command does nothing. -/
theorem hostWriteReg_noCommand {v : Word} {r : Reject} (h : decode (.ctrl v) = .rejected r) (s : State) :
    hostWriteReg 0#3 v s = .next s := by
  have hr : decodeReg 0#3 = .ctrl := rfl
  simp only [hostWriteReg, hr, h]

/-- CTRL is the register of index 0 only (R24). -/
theorem eq_zero_of_decodeReg_ctrl {idx : BitVec 3} (h : decodeReg idx = .ctrl) : idx = 0#3 := by
  revert idx; decide

/-- While BUSY = 1 a register write is ignored in full (R33, R191). -/
theorem hostWriteReg_busy {idx : BitVec 3} {v : Word} {s t : State} (hb : s.busy = true)
    (h : hostWriteReg idx v s = .next t) : t = s := by
  have idle_absurd : s.busy ≠ false := by simp [hb]
  rcases hostWriteReg_cases h with ht | ⟨hi, _⟩ | ⟨hi, _⟩ | ⟨hi, _⟩ | ⟨hi, _⟩ | ⟨hi, _⟩
  · exact ht
  all_goals exact absurd hi idle_absurd

/-- A register write is no access to IMEM, and the parameters are constants. -/
theorem hostWriteReg_frame {idx : BitVec 3} {v : Word} {s t : State} (h : hostWriteReg idx v s = .next t) :
    t.imem = s.imem ∧ t.config = s.config := by
  rcases hostWriteReg_cases h with rfl | ⟨_, _, _, hs⟩ | ⟨_, _, _, rfl⟩ | ⟨_, _, rfl⟩ | ⟨_, _, rfl⟩ | ⟨_, _, rfl⟩
  case inr.inl => rcases execStart_cases hs with ⟨_, rfl⟩ | ⟨_, _, rfl⟩ | ⟨_, _, _, rfl⟩ | ⟨_, _, _, rfl⟩ <;> simp
  all_goals simp

/-- Of the register writes only a command, accepted while BUSY = 0, changes STATUS (R23). -/
theorem hostWriteReg_status {idx : BitVec 3} {v : Word} {s t : State} (h : hostWriteReg idx v s = .next t) :
    t.status = s.status ∨ (s.busy = false ∧ idx = 0#3 ∧ ∃ i, decode (.ctrl v) = .instr i) := by
  rcases hostWriteReg_cases h with rfl | ⟨hb, hc, hd, _⟩ | ⟨hb, hc, hd, _⟩ | ⟨_, _, rfl⟩ | ⟨_, _, rfl⟩ | ⟨_, _, rfl⟩
  case inr.inl => exact .inr ⟨hb, eq_zero_of_decodeReg_ctrl hc, _, hd⟩
  case inr.inr.inl => exact .inr ⟨hb, eq_zero_of_decodeReg_ctrl hc, _, hd⟩
  all_goals exact .inl rfl

/-! ### The other host moves leave the registers (R192, R196, R197) -/

/-- The fields that are no register, latch or parameter may take any value. -/
theorem sameRegisters_update (s : State) (im om : Mem) (rb : RaceBook) (d : Nat) (ts : List Turn) (rs : List Word) :
    SameRegisters s { s with imem := im, omem := om, race := rb, draws := d, turns := ts, replies := rs } :=
  ⟨rfl, rfl, rfl, rfl, rfl, rfl, rfl, rfl, rfl, rfl⟩

theorem hostWriteMem_sameRegisters (sp : Space) (i : Nat) (w : Word) (s : State) :
    SameRegisters s (hostWriteMem sp i w s) := by
  cases sp with
  | imem =>
    obtain ⟨st, d, h⟩ := hostWriteImem_frame i w s
    rw [hostWriteMem, h]; exact sameRegisters_update ..
  | omem =>
    obtain ⟨x, k, b, d, h, _⟩ := hostWriteOmem_frame i w s
    rw [hostWriteMem, h]; exact sameRegisters_update ..

theorem hostReadMem_sameRegisters (sp : Space) (i : Nat) (s : State) : SameRegisters s (hostReadMem sp i s) := by
  obtain ⟨w, st, d, h⟩ := hostReadMem_frame sp i s
  rw [h]; exact sameRegisters_update ..

/-- A host move is a register write, or leaves every register. -/
theorem hostMove_writeReg_or_sameRegisters {m : HostMove} {s t : State} (h : hostMove m s = .next t) :
    (∃ idx v, m = .writeReg idx v ∧ hostWriteReg idx v s = .next t) ∨ SameRegisters s t := by
  obtain ⟨_, hw | ⟨idx, _, rfl⟩ | ⟨sp, i, w, _, rfl⟩ | ⟨sp, i, _, rfl⟩⟩ := hostMove_cases h
  · exact .inl hw
  · exact .inr (sameRegisters_update ..)
  · exact .inr (hostWriteMem_sameRegisters ..)
  · exact .inr (hostReadMem_sameRegisters ..)

/-- While BUSY = 1 no host move changes a register (R33). -/
theorem hostMove_busy_sameRegisters {m : HostMove} {s t : State} (hb : s.busy = true) (h : hostMove m s = .next t) :
    SameRegisters s t := by
  rcases hostMove_writeReg_or_sameRegisters h with ⟨idx, v, _, hw⟩ | hr
  · rw [hostWriteReg_busy hb hw]; exact sameRegisters_update ..
  · exact hr

theorem hostMove_config {m : HostMove} {s t : State} (h : hostMove m s = .next t) : t.config = s.config := by
  rcases hostMove_writeReg_or_sameRegisters h with ⟨idx, v, _, hw⟩ | hr
  · exact (hostWriteReg_frame hw).2
  · exact hr.config

/-- Of the host moves only a write of IMEM changes IMEM. -/
theorem hostMove_imem {m : HostMove} {s t : State} (h : hostMove m s = .next t) :
    t.imem = s.imem ∨ ∃ i w, m = .writeMem .imem i w := by
  obtain ⟨_, ⟨idx, v, _, hw⟩ | ⟨idx, _, rfl⟩ | ⟨sp, i, w, rfl, rfl⟩ | ⟨sp, i, _, rfl⟩⟩ := hostMove_cases h
  · exact .inl (hostWriteReg_frame hw).1
  · exact .inl rfl
  · cases sp with
    | imem => exact .inr ⟨i, w, rfl⟩
    | omem =>
      obtain ⟨x, k, b, d, hf, _⟩ := hostWriteOmem_frame i w s
      exact .inl (by rw [hostWriteMem, hf])
  · obtain ⟨w, st, d, hf⟩ := hostReadMem_frame sp i s
    exact .inl (by rw [hf])

/-! ### The engine's steps (R85 to R88) -/

theorem pixelEnabled_iff (s : State) :
    s.pixelEnabled = true ↔ s.busy = true ∧ 0 < s.width.toNat ∧ s.scany.toNat < s.height.toNat := by
  simp only [State.pixelEnabled, Bool.and_eq_true, decide_eq_true_eq, and_assoc]

theorem finishEnabled_iff (s : State) :
    s.finishEnabled = true ↔ s.busy = true ∧ (s.width = 0#16 ∨ s.scany = s.height) := by
  simp only [State.finishEnabled, Bool.and_eq_true, Bool.or_eq_true, beq_iff_eq]

/-- No engine step changes the configuration, the parameters or IMEM (R35, R220). -/
theorem engineTurn_frame {s t : State} (h : engineTurn s = .next t) :
    t.op = s.op ∧ t.width = s.width ∧ t.height = s.height ∧ t.config = s.config ∧ t.imem = s.imem := by
  rcases engineTurn_cases h with ⟨_, _, _, _, _, rfl⟩ | ⟨_, _, rfl⟩ | ⟨_, _, rfl⟩ <;> simp

/-- Of the engine's steps only the finish step changes STATUS (R23). -/
theorem engineTurn_status {s t : State} (h : engineTurn s = .next t) :
    t.status = s.status ∨ s.finishEnabled = true := by
  rcases engineTurn_cases h with ⟨_, _, _, _, _, rfl⟩ | ⟨hf, _, _⟩ | ⟨_, _, rfl⟩
  · exact .inl rfl
  · exact .inr hf
  · exact .inl rfl

/-- The index of a scan position inside the raster is below the raster's size (R48). -/
theorem scanIndex_lt_rasterSize {s : State} (hx : s.scanx.toNat < s.width.toNat)
    (hy : s.scany.toNat < s.height.toNat) : s.scanIndex < s.rasterSize := by
  unfold State.scanIndex State.rasterSize
  calc s.scany.toNat * s.width.toNat + s.scanx.toNat
      < s.scany.toNat * s.width.toNat + s.width.toNat := by omega
    _ = s.width.toNat * (s.scany.toNat + 1) := by ring
    _ ≤ s.width.toNat * s.height.toNat := Nat.mul_le_mul_left _ hy

/-! ### STATUS after a command and after the finish step (R29) -/

theorem busy_of_status_eq_one {s : State} (h : s.status = 1#3) : s.busy = true := by
  rw [State.busy, h]; rfl

/-- A refused START leaves ERR alone (R211). -/
theorem State.raiseErr_status_idle (e : ErrCause) (s : State) (h : s.busy = false) :
    (s.clearReport.raiseErr e).status = 4#3 := by
  rw [State.raiseErr_status, s.clearReport_status_idle h]; rfl

/-- A successful START leaves BUSY alone (R193). -/
theorem State.beginRun_status_idle (s : State) (h : s.busy = false) : s.clearReport.beginRun.status = 1#3 := by
  rw [State.beginRun_status, s.clearReport_status_idle h]; rfl

/-- The finish step leaves DONE alone (R87). -/
theorem State.finishRun_status_busy (s : State) (h : s.status = 1#3) : s.finishRun.status = 2#3 := by
  rw [State.finishRun_status, h]; rfl

end Sys2Proof.Machine

/-! PROOF. The invariant of R40: what it says of an idle machine and of a run, and that every turn keeps it (O43,
O44). -/

namespace Sys2Proof.Machine

/-! ### The clauses on memories -/

/-- A memory in canonical form inside the address space of `n` words (R51). -/
def Mem.Ok (m : Mem) (n : Nat) : Prop := Mem.wf m ∧ Mem.inRange m n

theorem Mem.Ok.nil (n : Nat) : Mem.Ok [] n := ⟨List.Pairwise.nil, fun _ h => nomatch h⟩

theorem Mem.Ok.write {m : Mem} {i n : Nat} (h : Mem.Ok m n) (hi : i < n) (w : Word) :
    Mem.Ok (memWriteWord m i w) n :=
  ⟨memWriteWord_wf i w h.1, memWriteWord_inRange hi h.2⟩

/-- The clauses of `State.Inv` on the memories and on the model's two records of OMEM. -/
structure State.MemInv (s : State) : Prop where
  imem   : Mem.Ok s.imem s.config.memPixels
  omem   : Mem.Ok s.omem s.config.memPixels
  before : Mem.Ok s.race.before s.config.memPixels
  stored : Mem.Ok s.race.stored s.config.memPixels

theorem State.Inv.memInv {s : State} (h : s.Inv) : s.MemInv where
  imem   := ⟨h.imemForm, h.imemRange⟩
  omem   := ⟨h.omemForm, h.omemRange⟩
  before := ⟨h.priorForm, h.priorRange⟩
  stored := ⟨h.storedForm, h.storedRange⟩

/-! ### The invariant of an idle machine, of a run, and of the same registers -/

/-- With BUSY = 0 the clauses on a run say nothing. -/
theorem State.MemInv.inv_of_idle {s : State} (m : s.MemInv) (hb : s.busy = false)
    (hs : s.status = 0#3 ∨ s.status = 1#3 ∨ s.status = 2#3 ∨ s.status = 4#3)
    (he : s.errcode ≠ 0#2 ↔ s.err = true) (hc : s.errcode ≠ 3#2) (hx : s.scanx = 0#16) : s.Inv where
  status := hs
  errIff := he
  errCode := hc
  runCode h := by simp [hb] at h
  runSize h := by simp [hb] at h
  runScan h := by simp [hb] at h
  idleScan _ := hx
  imemForm := m.imem.1
  omemForm := m.omem.1
  priorForm := m.before.1
  imemRange := m.imem.2
  omemRange := m.omem.2
  priorRange := m.before.2
  storedForm := m.stored.1
  storedRange := m.stored.2
  storedAll h := by simp [hb] at h

/-- With BUSY alone set there is no error to speak of and the engine is not idle. -/
theorem State.MemInv.inv_of_run {s : State} (m : s.MemInv) (hs : s.status = 1#3) (he : s.errcode = 0#2)
    (ho : s.op ≠ 15#4) (hr : s.rasterSize ≤ s.config.memPixels)
    (hp : (s.scanx.toNat < s.width.toNat ∧ s.scany.toNat < s.height.toNat) ∨
      (s.scanx = 0#16 ∧ s.scany = s.height) ∨ (s.width = 0#16 ∧ s.scanx = 0#16 ∧ s.scany = 0#16))
    (hw : ∀ i, i < s.scanIndex → memWritten s.race.stored i = true) : s.Inv where
  status := .inr (.inl hs)
  errIff := by simp [State.err, hs, he]
  errCode := by simp [he]
  runCode _ := ho
  runSize _ := hr
  runScan _ := hp
  idleScan h := by simp [busy_of_status_eq_one hs] at h
  imemForm := m.imem.1
  omemForm := m.omem.1
  priorForm := m.before.1
  imemRange := m.imem.2
  omemRange := m.omem.2
  priorRange := m.before.2
  storedForm := m.stored.1
  storedRange := m.stored.2
  storedAll _ := hw

/-- The clauses that are not on memories speak of registers, the parameters and the run's stored words only. -/
theorem State.MemInv.inv_of_sameRegisters {s t : State} (m : t.MemInv) (h : s.Inv) (r : SameRegisters s t)
    (hst : t.race.stored = s.race.stored) : t.Inv := by
  have hbusy : t.busy = s.busy := by rw [State.busy, r.status, State.busy]
  have herr : t.err = s.err := by rw [State.err, r.status, State.err]
  have hsize : t.rasterSize = s.rasterSize := by simp only [State.rasterSize, r.width, r.height]
  have hindex : t.scanIndex = s.scanIndex := by simp only [State.scanIndex, r.width, r.scanx, r.scany]
  exact {
    status := by rw [r.status]; exact h.status
    errIff := by rw [r.errcode, herr]; exact h.errIff
    errCode := by rw [r.errcode]; exact h.errCode
    runCode := by rw [hbusy, r.op]; exact h.runCode
    runSize := by rw [hbusy, hsize, r.config]; exact h.runSize
    runScan := by rw [hbusy, r.scanx, r.scany, r.width, r.height]; exact h.runScan
    idleScan := by rw [hbusy, r.scanx]; exact h.idleScan
    imemForm := m.imem.1
    omemForm := m.omem.1
    priorForm := m.before.1
    imemRange := m.imem.2
    omemRange := m.omem.2
    priorRange := m.before.2
    storedForm := m.stored.1
    storedRange := m.stored.2
    storedAll := by rw [hbusy, hindex, hst]; exact h.storedAll }

/-- The invariant does not speak of the turns to come. -/
theorem State.Inv.withTurns {s : State} (h : s.Inv) (ts : List Turn) : ({ s with turns := ts } : State).Inv :=
  State.MemInv.inv_of_sameRegisters ⟨h.memInv.imem, h.memInv.omem, h.memInv.before, h.memInv.stored⟩ h
    (sameRegisters_update ..) rfl

/-! ### What the invariant says during a run -/

theorem State.Inv.status_busy {s : State} (h : s.Inv) (hb : s.busy = true) : s.status = 1#3 :=
  State.Inv_busy_status s.status h.status hb

theorem State.Inv.errcode_busy {s : State} (h : s.Inv) (hb : s.busy = true) : s.errcode = 0#2 := by
  by_contra hne
  have herr := h.errIff.mp hne
  simp [State.err, h.status_busy hb] at herr

/-- Where the pixel step is enabled the scan position is inside the raster. -/
theorem State.Inv.inside {s : State} (h : s.Inv) (hp : s.pixelEnabled = true) :
    s.scanx.toNat < s.width.toNat ∧ s.scany.toNat < s.height.toNat := by
  obtain ⟨hb, hw, hy⟩ := (pixelEnabled_iff s).mp hp
  rcases h.runScan hb with hin | ⟨_, hend⟩ | ⟨hempty, _⟩
  · exact hin
  · rw [hend] at hy; omega
  · rw [hempty] at hw; simp at hw

/-- Where the finish step is enabled the scan is at the start of a row. -/
theorem State.Inv.scanx_finish {s : State} (h : s.Inv) (hf : s.finishEnabled = true) : s.scanx = 0#16 := by
  obtain ⟨hb, hend⟩ := (finishEnabled_iff s).mp hf
  rcases h.runScan hb with ⟨hx, hy⟩ | ⟨hx, _⟩ | ⟨_, hx, _⟩
  · rcases hend with hw | hh
    · rw [hw] at hx; simp at hx
    · rw [hh] at hy; omega
  · exact hx
  · exact hx

/-! ### The engine keeps the invariant -/

/-- The scan position after a pixel step inside the raster is inside it, or at the start of the row below it (R88). -/
theorem afterPixel_scan {T : Colour → Colour} {s : State} (hx : s.scanx.toNat < s.width.toNat)
    (hy : s.scany.toNat < s.height.toNat) :
    ((s.afterPixel T).scanx.toNat < s.width.toNat ∧ (s.afterPixel T).scany.toNat < s.height.toNat) ∨
      ((s.afterPixel T).scanx = 0#16 ∧ (s.afterPixel T).scany = s.height) := by
  have hn := nextPos_toNat (px := s.scanx) (Nat.zero_lt_of_lt hx) hy
  rw [State.afterPixel_scanx, State.afterPixel_scany]
  split at hn <;> obtain ⟨h1, h2⟩ := Prod.mk.inj hn
  · exact .inl ⟨by omega, by omega⟩
  · by_cases hlast : s.scany.toNat + 1 < s.height.toNat
    · exact .inl ⟨by omega, by omega⟩
    · exact .inr ⟨BitVec.eq_of_toNat_eq h1, BitVec.eq_of_toNat_eq (by omega)⟩

theorem afterPixel_inv {T : Colour → Colour} {s : State} (h : s.Inv) (hr : s.pixelReady) :
    (s.afterPixel T).Inv := by
  obtain ⟨hp, hi⟩ := hr
  obtain ⟨hb, _⟩ := (pixelEnabled_iff s).mp hp
  obtain ⟨hx, hy⟩ := h.inside hp
  have hm : (s.afterPixel T).MemInv :=
    ⟨h.memInv.imem, ⟨storeOmem_wf h.omemForm, storeOmem_inRange hi h.omemRange⟩, h.memInv.before,
      h.memInv.stored.write hi _⟩
  refine hm.inv_of_run (h.status_busy hb) (h.errcode_busy hb) (h.runCode hb) (h.runSize hb)
    ((afterPixel_scan hx hy).imp_right .inl) fun i hlt => ?_
  rw [afterPixel_scanIndex hx hy] at hlt
  rw [State.afterPixel_race, State.storeRace_stored]
  by_cases heq : s.scanIndex = i
  · rw [heq]; exact memWritten_memWriteWord_same ..
  · rw [memWritten_memWriteWord_other heq]; exact h.storedAll hb i (by omega)

theorem finishRun_inv {s : State} (h : s.Inv) (hf : s.finishEnabled = true) : s.finishRun.Inv := by
  obtain ⟨hb, _⟩ := (finishEnabled_iff s).mp hf
  have hm : s.finishRun.MemInv := ⟨h.memInv.imem, h.memInv.omem, Mem.Ok.nil _, Mem.Ok.nil _⟩
  exact hm.inv_of_idle s.finishRun_busy (.inr (.inr (.inl (s.finishRun_status_busy (h.status_busy hb)))))
    (by rw [State.finishRun_errcode, State.finishRun_err]; exact h.errIff) h.errCode (h.scanx_finish hf)

theorem engineTurn_inv {s t : State} (h : s.Inv) (ht : engineTurn s = .next t) : t.Inv := by
  rcases engineTurn_cases ht with ⟨_, _, _, _, hr, rfl⟩ | ⟨hf, _, rfl⟩ | ⟨_, _, rfl⟩
  · exact afterPixel_inv h hr
  · exact finishRun_inv h hf
  · exact h

/-! ### The host keeps the invariant -/

theorem clearReport_inv {s : State} (h : s.Inv) (hb : s.busy = false) : s.clearReport.Inv := by
  have hm : s.clearReport.MemInv := ⟨h.memInv.imem, h.memInv.omem, h.memInv.before, h.memInv.stored⟩
  exact hm.inv_of_idle (by simpa using hb) (.inl (s.clearReport_status_idle hb)) (by simp) (by simp) (h.idleScan hb)

/-- A refused START keeps the invariant: it sets ERR together with a code that is 1 or 2 (R211). -/
theorem raiseErr_inv {s : State} (e : ErrCause) (h : s.Inv) (hb : s.busy = false) :
    (s.clearReport.raiseErr e).Inv := by
  have hm : (s.clearReport.raiseErr e).MemInv :=
    ⟨h.memInv.imem, h.memInv.omem, h.memInv.before, h.memInv.stored⟩
  have hcode : e.code ≠ 0#2 ∧ e.code ≠ 3#2 := by cases e <;> decide
  exact hm.inv_of_idle (by simpa using hb) (.inr (.inr (.inr (s.raiseErr_status_idle e hb)))) (by simpa using hcode.1)
    hcode.2 (h.idleScan hb)

/-- A successful START keeps the invariant: the run begins at the origin with nothing stored (R193). -/
theorem beginRun_inv {s : State} (h : s.Inv) (hb : s.busy = false) (ho : s.op ≠ 15#4)
    (hr : s.rasterSize ≤ s.config.memPixels) : s.clearReport.beginRun.Inv := by
  have hm : s.clearReport.beginRun.MemInv := ⟨h.memInv.imem, h.memInv.omem, h.memInv.omem, Mem.Ok.nil _⟩
  refine hm.inv_of_run (s.beginRun_status_idle hb) rfl ho hr ?_ fun i hi => ?_
  · simp only [State.beginRun_scanx, State.beginRun_scany, State.beginRun_width, State.beginRun_height,
      State.clearReport_width, State.clearReport_height, true_and, and_true]
    by_cases hw : s.width = 0#16
    · exact .inr (.inr hw)
    · by_cases hh : s.height = 0#16
      · exact .inr (.inl hh.symm)
      · exact .inl (by constructor <;> bv_omega)
  · simp [State.scanIndex] at hi

theorem execStart_inv {s t : State} (h : s.Inv) (ht : execStart s = .next t) : t.Inv := by
  rcases execStart_cases ht with ⟨_, rfl⟩ | ⟨hb, _, rfl⟩ | ⟨hb, _, _, rfl⟩ | ⟨hb, ho, hr, rfl⟩
  · exact h
  · exact raiseErr_inv _ h hb
  · exact raiseErr_inv _ h hb
  · exact beginRun_inv h hb ho hr

/-- While BUSY = 0 the invariant does not speak of the configuration registers. -/
theorem configure_inv {s : State} (h : s.Inv) (hb : s.busy = false) (op : BitVec 4) (width height : Half) :
    ({ s with op := op, width := width, height := height } : State).Inv :=
  State.MemInv.inv_of_idle ⟨h.memInv.imem, h.memInv.omem, h.memInv.before, h.memInv.stored⟩ hb h.status h.errIff
    h.errCode (h.idleScan hb)

theorem hostWriteReg_inv {idx : BitVec 3} {v : Word} {s t : State} (h : s.Inv)
    (ht : hostWriteReg idx v s = .next t) : t.Inv := by
  rcases hostWriteReg_cases ht with rfl | ⟨_, _, _, hs⟩ | ⟨hb, _, _, rfl⟩ | ⟨hb, _, rfl⟩ | ⟨hb, _, rfl⟩ | ⟨hb, _, rfl⟩
  · exact h
  · exact execStart_inv h hs
  · exact clearReport_inv h hb
  · exact configure_inv h hb _ _ _
  · exact configure_inv h hb _ _ _
  · exact configure_inv h hb _ _ _

theorem hostWriteMem_inv {sp : Space} {i : Nat} {w : Word} {s : State} (h : s.Inv) (hi : i < s.config.memPixels) :
    (hostWriteMem sp i w s).Inv := by
  have m := h.memInv
  cases sp with
  | imem =>
    obtain ⟨st, d, hf⟩ := hostWriteImem_frame i w s
    rw [hostWriteMem, hf]
    exact State.MemInv.inv_of_sameRegisters ⟨m.imem.write hi w, m.omem, m.before, m.stored⟩ h
      (sameRegisters_update ..) rfl
  | omem =>
    obtain ⟨x, k, b, d, hf, hprior⟩ := hostWriteOmem_frame i w s
    have hbefore : Mem.Ok b s.config.memPixels := by
      rcases hprior with rfl | rfl
      · exact m.before.write hi w
      · exact m.before
    rw [hostWriteMem, hf]
    exact State.MemInv.inv_of_sameRegisters ⟨m.imem, m.omem.write hi x, hbefore, m.stored⟩ h
      (sameRegisters_update ..) rfl

theorem hostReadMem_inv {sp : Space} {i : Nat} {s : State} (h : s.Inv) : (hostReadMem sp i s).Inv := by
  have m := h.memInv
  obtain ⟨w, st, d, hf⟩ := hostReadMem_frame sp i s
  rw [hf]
  exact State.MemInv.inv_of_sameRegisters ⟨m.imem, m.omem, m.before, m.stored⟩ h (sameRegisters_update ..) rfl

theorem reply_inv {w : Word} {s : State} (h : s.Inv) : (s.reply w).Inv :=
  State.MemInv.inv_of_sameRegisters ⟨h.memInv.imem, h.memInv.omem, h.memInv.before, h.memInv.stored⟩ h
    (sameRegisters_update ..) rfl

theorem hostMove_inv {m : HostMove} {s t : State} (h : s.Inv) (ht : hostMove m s = .next t) : t.Inv := by
  obtain ⟨hwf, ⟨idx, v, _, hw⟩ | ⟨idx, _, rfl⟩ | ⟨sp, i, w, rfl, rfl⟩ | ⟨sp, i, _, rfl⟩⟩ := hostMove_cases ht
  · exact hostWriteReg_inv h hw
  · exact reply_inv h
  · exact hostWriteMem_inv h (by simpa [HostMove.wf] using hwf)
  · exact hostReadMem_inv h

/-! ### Reset, and every step -/

/-- The reset event establishes the invariant, whatever the state before (R235). -/
theorem resetEvent_inv (s : State) : s.resetEvent.Inv :=
  State.MemInv.inv_of_idle ⟨Mem.Ok.nil _, Mem.Ok.nil _, Mem.Ok.nil _, Mem.Ok.nil _⟩ (by simp [State.busy]) (.inl rfl)
    (by simp [State.err]) (by simp) rfl

/-- Settles O43: the reset state is idle, reports nothing and lists no byte of a memory. -/
theorem resetKeepsTheInvariant : Obligations.ResetKeepsTheInvariant := by
  have hm : State.reset.MemInv := ⟨Mem.Ok.nil _, Mem.Ok.nil _, Mem.Ok.nil _, Mem.Ok.nil _⟩
  have herr : State.reset.errcode ≠ 0#2 ↔ State.reset.err = true := by simp [State.err, State.reset]
  exact hm.inv_of_idle rfl (.inl rfl) herr (by simp [State.reset]) rfl

/-- Settles O44, by the kind of the turn. -/
theorem everyStepKeepsTheInvariant : Obligations.EveryStepKeepsTheInvariant := by
  intro s t h ht
  obtain ⟨rest, ⟨_, he⟩ | ⟨m, _, hm⟩ | ⟨_, rfl⟩⟩ := step_kinds ht
  · exact engineTurn_inv (h.withTurns rest) he
  · exact hostMove_inv (h.withTurns rest) hm
  · exact resetEvent_inv _

end Sys2Proof.Machine

/-! PROOF. The whole-machine rules: what a step runs, and which turns change IMEM, STATUS and the configuration (O8,
O46, O47, O48). -/

namespace Sys2Proof.Machine

/-- Settles O8. -/
theorem controlWriteRunsTheDecodedCommand : Obligations.ControlWriteRunsTheDecodedCommand := by
  refine ⟨fun s m rest h => step_host h, fun s rest h => step_reset h,
    fun s v rest h => ⟨fun i hi => ?_, fun r hr => ?_⟩⟩
  · rw [step_host h, hostMove_writeReg, hostWriteReg_command hi]
  · rw [step_host h, hostMove_writeReg, hostWriteReg_noCommand hr]

/-- Settles O46, by the kind of the turn: the engine's turn and every host move but a write of IMEM leave IMEM. -/
theorem onlyTheHostWritesImem : Obligations.OnlyTheHostWritesImem := by
  intro s t ht hne
  obtain ⟨rest, ⟨_, he⟩ | ⟨m, hturns, hm⟩ | ⟨hturns, _⟩⟩ := step_kinds ht
  · obtain ⟨_, _, _, _, himem⟩ := engineTurn_frame he
    exact absurd himem hne
  · rcases hostMove_imem hm with himem | ⟨i, w, rfl⟩
    · exact absurd himem hne
    · exact .inl ⟨i, w, rest, hturns⟩
  · exact .inr ⟨rest, hturns⟩

/-- Settles O47, by the kind of the turn: of the engine's steps only the finish step, of the host moves only a command
accepted while idle changes STATUS. -/
theorem onlyTheseEventsWriteStatus : Obligations.OnlyTheseEventsWriteStatus := by
  intro s t ht hne
  obtain ⟨rest, ⟨hturns, he⟩ | ⟨m, hturns, hm⟩ | ⟨hturns, _⟩⟩ := step_kinds ht
  · rcases engineTurn_status he with hsame | hfinish
    · exact absurd hsame hne
    · exact .inl ⟨hfinish, hturns⟩
  · rcases hostMove_writeReg_or_sameRegisters hm with ⟨idx, v, rfl, hw⟩ | hsame
    · rcases hostWriteReg_status hw with hsame | ⟨hb, rfl, i, hi⟩
      · exact absurd hsame hne
      · exact .inr (.inl ⟨hb, v, i, rest, hturns, hi⟩)
    · exact absurd hsame.status hne
  · exact .inr (.inr ⟨rest, hturns⟩)

theorem step_config {s t : State} (h : step s = .next t) : t.config = s.config := by
  obtain ⟨rest, ⟨_, he⟩ | ⟨m, _, hm⟩ | ⟨_, rfl⟩⟩ := step_kinds h
  · obtain ⟨_, _, _, hconfig, _⟩ := engineTurn_frame he
    exact hconfig
  · have hconfig := hostMove_config hm
    exact hconfig
  · rfl

/-- A step that clears BUSY changes STATUS. -/
theorem status_ne_of_busy {s t : State} (hs : s.busy = true) (ht : t.busy = false) : t.status ≠ s.status := by
  intro h
  rw [State.busy, h] at ht
  rw [State.busy, ht] at hs
  cases hs

/-- Settles O48: the frames of the engine's turn and of a host move while BUSY = 1; what can end a run is O47. -/
theorem runKeepsItsConfiguration : Obligations.RunKeepsItsConfiguration := by
  intro s t ht
  refine ⟨step_config ht, fun hb hreset => ?_⟩
  have hend : t.busy = false → s.finishEnabled = true ∧ s.engineNext := fun hidle => by
    rcases onlyTheseEventsWriteStatus s t ht (status_ne_of_busy hb hidle) with hfinish | ⟨hs, _⟩ | ⟨rest, hturns⟩
    · exact hfinish
    · rw [hb] at hs; cases hs
    · exact absurd hturns (hreset rest)
  obtain ⟨rest, ⟨_, he⟩ | ⟨m, _, hm⟩ | ⟨hturns, _⟩⟩ := step_kinds ht
  · obtain ⟨hop, hwidth, hheight, _⟩ := engineTurn_frame he
    exact ⟨hop, hwidth, hheight, hend⟩
  · have hsame := hostMove_busy_sameRegisters (s := { s with turns := rest }) hb hm
    exact ⟨hsame.op, hsame.width, hsame.height, hend⟩
  · exact absurd hturns (hreset rest)

end Sys2Proof.Machine

/-! PROOF. A run without races over a filled raster: OMEM follows the scan position (R40 (d)), from the START on, at
every engine step and beside a host that keeps its duties (O49). -/

namespace Sys2Proof.Machine

/-- A run of the transform `f` without races over a filled raster, whose OMEM follows the scan position (R40 (d)): what
every turn of such a run keeps. -/
structure State.RunFollows (f : Word → Word) (s : State) : Prop where
  behind : s.behindScan f
  stale  : s.race.stale = []
  kept   : s.race.kept = []
  code   : runFunction s = some f
  filled : s.filled

/-- The run does not depend on the draws, the turns to come or the replies. -/
theorem State.RunFollows.update {f : Word → Word} {s : State} (h : s.RunFollows f) (d : Nat) (ts : List Turn)
    (rs : List Word) : ({ s with draws := d, turns := ts, replies := rs } : State).RunFollows f :=
  ⟨h.behind, h.stale, h.kept, h.code, h.filled⟩

/-- The run's function is that of the transform the engine takes (R95, R98). -/
theorem runFunction_of_decode {s : State} {i : Instr} {T : Colour → Colour} (hi : decode (.op4 s.op) = .instr i)
    (hT : transformOf s.config i = some T) : runFunction s = some (pixelFunction T) := by
  simp only [runFunction, hi, hT, Option.map_some]

/-! ### START (R193) -/

/-- A START from idle that leaves BUSY set is the successful one. -/
theorem execStart_begins {s t : State} (hs : s.busy = false) (h : execStart s = .next t) (ht : t.busy = true) :
    t = s.clearReport.beginRun := by
  rcases execStart_cases h with ⟨hb, _⟩ | ⟨_, _, rfl⟩ | ⟨_, _, _, rfl⟩ | ⟨_, _, _, hbegin⟩
  · rw [hs] at hb; cases hb
  · rw [State.raiseErr_busy, State.clearReport_busy, hs] at ht; cases ht
  · rw [State.raiseErr_busy, State.clearReport_busy, hs] at ht; cases ht
  · exact hbegin

/-- At the origin nothing is behind the scan position, and the record of OMEM is OMEM. -/
theorem beginRun_behindScan (F : Word → Word) (s : State) : s.beginRun.behindScan F := by
  have horigin : s.beginRun.scanIndex = 0 := by simp [State.scanIndex]
  exact ⟨fun i hi => by omega, fun _ _ _ => rfl⟩

/-! ### The pixel step (R86) -/

/-- Where the engine holds no word and the word is written, it reads IMEM's word, whatever the draw. -/
theorem fetchWord_of_written {s : State} {i : Nat} (hs : s.race.stale = []) (hw : memWritten s.imem i = true) :
    s.fetchWord i = memWord s.imem i 0 := by
  rw [fetchWord_free (by rw [hs]; rfl)]
  exact memWord_written hw _ _

/-- Where no racing host write remains the engine's store replaces the word. -/
theorem storeOmem_of_kept_nil {s : State} (h : s.race.kept = []) (i : Nat) (w : Word) :
    s.storeOmem i w = memWriteWord s.omem i w := by
  simp [State.storeOmem, h]

/-- A pixel step puts one more word behind the scan position, and that word is the transform of IMEM's. -/
theorem afterPixel_behindScan {T : Colour → Colour} {s : State} (hx : s.scanx.toNat < s.width.toNat)
    (hy : s.scany.toNat < s.height.toNat) (hs : s.race.stale = []) (hk : s.race.kept = []) (hf : s.filled)
    (h : s.behindScan (pixelFunction T)) : (s.afterPixel T).behindScan (pixelFunction T) := by
  have hfetch : s.fetchWord s.scanIndex = memWord s.imem s.scanIndex 0 :=
    fetchWord_of_written hs (hf _ (scanIndex_lt_rasterSize hx hy))
  have homem : (s.afterPixel T).omem =
      memWriteWord s.omem s.scanIndex (pixelFunction T (memWord s.imem s.scanIndex 0)) := by
    rw [State.afterPixel_omem, storeOmem_of_kept_nil hk, hfetch]
  obtain ⟨hbehind, hahead⟩ := h
  unfold State.behindScan
  rw [afterPixel_scanIndex hx hy, homem]
  refine ⟨fun i hi n => ?_, fun a ha hlt => ?_⟩
  · rw [State.afterPixel_imem]
    by_cases heq : s.scanIndex = i
    · rw [heq]; exact memWord_memWriteWord_same ..
    · rw [memWord_memWriteWord_other heq]; exact hbehind i (by omega) n
  · rw [memByte_memWriteWord_other (.inr (by omega))]
    exact hahead a (by omega) hlt

/-! ### Every turn of the run -/

theorem engineTurn_runFollows {f : Word → Word} {s t : State} (hinv : s.Inv) (h : s.RunFollows f)
    (ht : engineTurn s = .next t) (hb : t.busy = true) : t.RunFollows f := by
  rcases engineTurn_cases ht with ⟨i, T, hi, hT, ⟨hp, _⟩, rfl⟩ | ⟨_, _, rfl⟩ | ⟨_, _, rfl⟩
  · obtain ⟨hx, hy⟩ := hinv.inside hp
    have hf : f = pixelFunction T := Option.some.inj (h.code.symm.trans (runFunction_of_decode hi hT))
    subst hf
    exact ⟨afterPixel_behindScan hx hy h.stale h.kept h.filled h.behind, h.stale, h.kept, h.code, h.filled⟩
  · rw [State.finishRun_busy] at hb; cases hb
  · exact h

/-- During a run a host that keeps its duties changes the replies and the draws only (R242). -/
theorem hostMove_dutiful {m : HostMove} {n : Nat} {s t : State} (hb : s.busy = true)
    (hd : turnKeepsDuties n (.host m) = true) (h : hostMove m s = .next t) :
    ∃ d rs, t = { s with draws := d, replies := rs } := by
  obtain ⟨_, ⟨idx, v, rfl, hw⟩ | ⟨idx, rfl, rfl⟩ | ⟨sp, i, w, rfl, rfl⟩ | ⟨sp, i, rfl, rfl⟩⟩ := hostMove_cases h
  · exact ⟨s.draws, s.replies, hostWriteReg_busy hb hw⟩
  · exact ⟨s.draws, _, rfl⟩
  · simp [turnKeepsDuties] at hd
  · cases sp with
    | imem => exact ⟨_, _, rfl⟩
    | omem => simp [turnKeepsDuties] at hd

/-- Every turn but a reset, the host's within its duties, keeps the run on its way until the finish step. -/
theorem step_runFollows {f : Word → Word} {s t : State} (hinv : s.Inv) (hb : s.busy = true) (h : s.RunFollows f)
    (hturn : s.turns = [] ∨ ∃ u rest, s.turns = u :: rest ∧ turnKeepsDuties s.config.memPixels u = true)
    (ht : step s = .next t) (htb : t.busy = true) : t.RunFollows f := by
  have duties : ∀ u rest, s.turns = u :: rest → turnKeepsDuties s.config.memPixels u = true := by
    intro u rest hu
    rcases hturn with hnil | ⟨u', rest', hu', hd⟩
    · rw [hnil] at hu; cases hu
    · rw [hu] at hu'; cases hu'; exact hd
  obtain ⟨rest, ⟨_, he⟩ | ⟨m, hu, hm⟩ | ⟨hu, _⟩⟩ := step_kinds ht
  · exact engineTurn_runFollows (hinv.withTurns rest) (h.update s.draws rest s.replies) he htb
  · obtain ⟨d, rs, rfl⟩ := hostMove_dutiful (s := { s with turns := rest }) hb (duties _ _ hu) hm
    exact h.update d rest rs
  · cases duties _ _ hu

/-- Settles O49: START establishes it at the origin, and `State.RunFollows` is kept by every turn. -/
theorem omemFollowsTheScan : Obligations.OmemFollowsTheScan := by
  refine ⟨fun s t f hs hstart ht _ => ?_, fun s t f hinv hb hstale hkept hfilled hcode hbehind hturn ht htb => ?_⟩
  · obtain rfl := execStart_begins hs hstart ht
    exact ⟨beginRun_behindScan f _, rfl, rfl⟩
  · obtain ⟨hbehind', hstale', hkept', hcode', hfilled'⟩ :=
      step_runFollows hinv hb ⟨hbehind, hstale, hkept, hcode, hfilled⟩ hturn ht htb
    exact ⟨hbehind', hstale', hkept', hcode', hfilled'⟩

end Sys2Proof.Machine

/-! PROOF. The layout of a pixel word and the byte view of a memory (R46, R47): the bytes of a word put together from
bytes, of a word read and of a word written (O4, O5). -/

namespace Sys2Proof.Machine

/-! ### The four bytes of a word -/

/-- Byte `k` of a word put together from four bytes is the `k`-th of them. -/
theorem wordByte_wordOfBytes (b : Nat → Byte) {k : Nat} (hk : k < 4) :
    wordByte (wordOfBytes (b 0) (b 1) (b 2) (b 3)) k = b k := by
  interval_cases k
  · exact BitVec.extractLsb'_append_eq_right
  · exact (BitVec.extractLsb'_append_eq_of_le (by decide)).trans BitVec.extractLsb'_append_eq_right
  · exact ((BitVec.extractLsb'_append_eq_of_le (by decide)).trans
      (BitVec.extractLsb'_append_eq_of_le (by decide))).trans BitVec.extractLsb'_append_eq_right
  · exact ((BitVec.extractLsb'_append_eq_of_le (by decide)).trans
      (BitVec.extractLsb'_append_eq_of_le (by decide))).trans BitVec.extractLsb'_append_eq_left

/-- Byte `k` of a word read is the memory's byte at its address, or the draw's where nobody has written it (R47,
R60). -/
theorem wordByte_memWord (m : Mem) (i n : Nat) {k : Nat} (hk : k < 4) :
    wordByte (memWord m i n) k = (memByte m (byteAddr i k)).getD (Config.freeByte (n + k)) :=
  wordByte_wordOfBytes (fun k => (memByte m (byteAddr i k)).getD (Config.freeByte (n + k))) hk

/-- A word write puts byte `k` of the word at its address (R47). -/
theorem memByte_memWriteWord_byteAddr (m : Mem) (i : Nat) (w : Word) {k : Nat} (hk : k < 4) :
    memByte (memWriteWord m i w) (byteAddr i k) = some (wordByte w k) := by
  obtain ⟨h0, h1, h2, h3⟩ := memByte_memWriteWord_same m i w
  interval_cases k
  · exact h0
  · exact h1
  · exact h2
  · exact h3

/-- Byte `j` of a written word in which byte `k` has been replaced. -/
theorem wordByte_memWord_memSetByte (m : Mem) (i n : Nat) (w : Word) (b : Byte) {j k : Nat} (hj : j < 4) :
    wordByte (memWord (memSetByte (memWriteWord m i w) (byteAddr i k) b) i n) j =
      if j = k then b else wordByte w j := by
  rw [wordByte_memWord _ _ _ hj, memByte_memSetByte, memByte_memWriteWord_byteAddr _ _ _ hj]
  by_cases hjk : j = k
  · rw [if_pos (congrArg (byteAddr i) hjk), if_pos hjk, Option.getD_some]
  · have haddr : byteAddr i j ≠ byteAddr i k := by unfold byteAddr; omega
    rw [if_neg haddr, if_neg hjk, Option.getD_some]

/-! ### Pixels (R46) -/

theorem pack_unpack (w : Word) : pack (unpack w) = w := wordOfBytes_wordByte w

theorem unpack_pack (p : Pixel) : unpack (pack p) = p := by
  have channel : ∀ k, k < 4 → wordByte (pack p) k = [p.c1, p.c2, p.c3, p.a].getD k 0#8 :=
    fun _ hk => wordByte_wordOfBytes (fun k => [p.c1, p.c2, p.c3, p.a].getD k 0#8) hk
  rw [unpack, channel 0 (by omega), channel 1 (by omega), channel 2 (by omega), channel 3 (by omega)]
  rfl

/-- Settles O4: the layout is the definition's, and the bytes of a word determine it. -/
theorem pixelWordLayout : Obligations.PixelWordLayout :=
  ⟨fun _ => rfl, fun _ => rfl, pack_unpack, unpack_pack⟩

/-- Settles O5: a byte read after a word write, and after the write of one byte over it. -/
theorem byteViewIsLittleEndian : Obligations.ByteViewIsLittleEndian := by
  intro m i k n w b hk
  refine ⟨memByte_memWriteWord_byteAddr m i w hk, fun j hj => wordByte_memWord_memSetByte m i n w b hj,
    fun a ha => ?_⟩
  rw [memByte_memSetByte, if_neg ha]

end Sys2Proof.Machine

/-! PROOF. Where a transform takes no step, and the indices that exist (R52, R85, R98; O31, O39). -/

namespace Sys2Proof.Machine

/-- Every instruction but the two commands has a transform (R71, R98). -/
theorem transformOf_of_ne_command (cfg : Config) {i : Instr} (hs : i ≠ .start) (hc : i ≠ .clr) :
    ∃ T, transformOf cfg i = some T := by
  cases i
  case start => exact absurd rfl hs
  case clr => exact absurd rfl hc
  all_goals exact ⟨_, rfl⟩

/-- Where no pixel step is enabled the engine takes none (R85). -/
theorem pixelStep_disabled {T : Colour → Colour} {s : State} (h : s.pixelEnabled = false) :
    pixelStep T s = .next s := by
  simp [pixelStep, h]

/-- A pixel step at an index that does not exist stops (log entry 13). -/
theorem pixelStep_outOfRange {T : Colour → Colour} {s : State} (h : s.pixelEnabled = true)
    (hi : s.config.memPixels ≤ s.scanIndex) : pixelStep T s = .fault .engineIndexOutOfRange := by
  rw [pixelStep, if_pos h, if_neg (Nat.not_lt.mpr hi)]

/-- The engine's turn under the reserved code stops (R75, log entry 13). -/
theorem engineTurn_reserved {s : State} (h : s.pixelEnabled = true) (ho : s.op = 15#4) :
    engineTurn s = .fault .reservedCodeInRun := by
  have hd : decode (.op4 s.op) = .rejected .reservedOp := by rw [ho]; rfl
  simp only [engineTurn, h, if_true, hd]

/-- In a run that keeps the invariant the index of the pixel step is inside the raster, and the raster fits (R52). -/
theorem State.Inv.scanIndex_lt {s : State} (h : s.Inv) (hp : s.pixelEnabled = true) :
    s.scanIndex < s.config.memPixels := by
  obtain ⟨hb, _⟩ := (pixelEnabled_iff s).mp hp
  obtain ⟨hx, hy⟩ := h.inside hp
  exact Nat.lt_of_lt_of_le (scanIndex_lt_rasterSize hx hy) (h.runSize hb)

/-- Settles O31: a transform is the pixel step with its function, whose three branches these are. -/
theorem transformsOutsideTheirStep : Obligations.TransformsOutsideTheirStep := by
  refine ⟨fun i s hs hc hp => ?_, fun i s hs hc hp hi => ?_, fun s hp ho => engineTurn_reserved hp ho,
    fun s hinv hp => ⟨hinv.runCode ((pixelEnabled_iff s).mp hp).1, hinv.scanIndex_lt hp⟩⟩
  · obtain ⟨T, hT⟩ := transformOf_of_ne_command s.config hs hc
    rw [exec_transform hT, pixelStep_disabled hp]
  · obtain ⟨T, hT⟩ := transformOf_of_ne_command s.config hs hc
    rw [exec_transform hT, pixelStep_outOfRange hp hi]

/-- A move that is not legal is refused (R52, U4). -/
theorem hostMove_illegal {m : HostMove} {s : State} (h : m.wf s.config.memPixels = false) :
    hostMove m s = .refused .hostIndexOutOfRange := by
  simp [hostMove, h]

/-- Settles O39. -/
theorem indicesStayInTheMemory : Obligations.IndicesStayInTheMemory :=
  ⟨fun _ hinv hp => hinv.scanIndex_lt hp, fun _ _ h => hostMove_illegal h⟩

end Sys2Proof.Machine

/-! PROOF. Host accesses that race with a run (R61): for each of the three, its equations by the coin and the scan
position, what the engine then reads or leaves, and what it does not touch (O40). -/

namespace Sys2Proof.Machine

/-! ### Legal memory moves, and what all three leave -/

theorem hostMove_writeMem {s : State} {i : Nat} (hi : i < s.config.memPixels) (sp : Space) (w : Word) :
    hostMove (.writeMem sp i w) s = .next (hostWriteMem sp i w s) := by
  simp [hostMove, HostMove.wf, hi]

theorem hostMove_readMem {s : State} {i : Nat} (hi : i < s.config.memPixels) (sp : Space) :
    hostMove (.readMem sp i) s = .next (hostReadMem sp i s) := by
  simp [hostMove, HostMove.wf, hi]

/-- A word write leaves every byte that is not the word's. -/
theorem memByte_memWriteWord_notInWord {m : Mem} {i a : Nat} {w : Word} (h : ¬ inWord i a) :
    memByte (memWriteWord m i w) a = memByte m a :=
  memByte_memWriteWord_other (by unfold inWord at h; omega)

/-- An update of the memories, of the record of races but for the stored words, of the draws and of the replies touches
nothing beside word `i` if each part does not. -/
theorem sameBesideWord_update {i : Nat} {s : State} {im om b : Mem} {st : List (Nat × Word)} {k : List Nat} (d : Nat)
    (rs : List Word) (himem : ∀ a, ¬ inWord i a → memByte im a = memByte s.imem a)
    (homem : ∀ a, ¬ inWord i a → memByte om a = memByte s.omem a)
    (hstale : ∀ j, j ≠ i → staleWord st j = staleWord s.race.stale j)
    (hkept : ∀ j, j ≠ i → (j ∈ k ↔ j ∈ s.race.kept))
    (hbefore : ∀ a, ¬ inWord i a → memByte b a = memByte s.race.before a) :
    SameBesideWord i s { s with imem := im, omem := om, draws := d, replies := rs,
                                race := { s.race with stale := st, kept := k, before := b } } :=
  ⟨sameRegisters_update .., rfl, himem, homem, hstale, hkept, hbefore, rfl⟩

/-! ### A write of an IMEM word ahead of the scan position (log entry 9) -/

theorem markStale_coin {i : Nat} {s : State} (ha : s.ahead i = true) (hc : s.coin = true) :
    s.markStale i = s.drawCoin.hold i := by
  rw [State.markStale, if_pos ha, if_pos hc]

theorem markStale_noCoin {i : Nat} {s : State} (ha : s.ahead i = true) (hc : s.coin = false) :
    s.markStale i = s.drawCoin := by
  rw [State.markStale, if_pos ha, if_neg (Bool.eq_false_iff.mp hc)]

/-- Marking a word leaves what the engine holds of the others. -/
theorem markStale_other {i j : Nat} (h : j ≠ i) (s : State) :
    staleWord (s.markStale i).race.stale j = staleWord s.race.stale j := by
  unfold State.markStale
  split
  · split
    · exact hold_other h s.drawCoin
    · rfl
  · rfl

/-- A word the engine holds it keeps, whatever the coin. -/
theorem markStale_held {i : Nat} {x : Word} {s : State} (h : staleWord s.race.stale i = some x) :
    staleWord (s.markStale i).race.stale i = some x := by
  have hdrawn : staleWord s.drawCoin.race.stale i = some x := h
  unfold State.markStale
  split
  · split
    · rw [hold_held, fetchWord_held hdrawn]
    · exact hdrawn
  · exact h

theorem hostWriteImem_fetchWord_held {i : Nat} {w x : Word} {s : State} (h : staleWord s.race.stale i = some x) :
    (hostWriteImem i w s).fetchWord i = x :=
  fetchWord_held (markStale_held h)

/-- With the coin the engine takes hold of the old word before it is written. -/
theorem hostWriteImem_fetchWord_coin {i : Nat} {w : Word} {s : State} (ha : s.ahead i = true)
    (h : staleWord s.race.stale i = none) (hc : s.coin = true) :
    (hostWriteImem i w s).fetchWord i = memWord s.imem i (s.draws + 1) := by
  have hdrawn : staleWord s.drawCoin.race.stale i = none := h
  have hheld : staleWord (hostWriteImem i w s).race.stale i = some (s.drawCoin.fetchWord i) := by
    rw [← hold_held, ← markStale_coin ha hc]; rfl
  rw [fetchWord_held hheld, fetchWord_free hdrawn]; rfl

/-- Without the coin the engine holds nothing and reads the new word. -/
theorem hostWriteImem_fetchWord_noCoin {i : Nat} {w : Word} {s : State} (ha : s.ahead i = true)
    (h : staleWord s.race.stale i = none) (hc : s.coin = false) : (hostWriteImem i w s).fetchWord i = w := by
  have hfree : staleWord (hostWriteImem i w s).race.stale i = none := by
    rw [hostWriteImem, markStale_noCoin ha hc]; exact h
  rw [fetchWord_free hfree]
  exact memWord_memWriteWord_same ..

theorem hostWriteImem_sameBesideWord (i : Nat) (w : Word) (s : State) :
    SameBesideWord i s (hostWriteImem i w s) := by
  obtain ⟨st, d, hf⟩ := markStale_frame i s
  have hstale : ∀ j, j ≠ i → staleWord st j = staleWord s.race.stale j := fun j hj => by
    simpa only [hf] using markStale_other hj s
  rw [hostWriteImem, hf]
  exact sameBesideWord_update d s.replies (fun _ ha => memByte_memWriteWord_notInWord ha) (fun _ _ => rfl) hstale
    (fun _ _ => Iff.rfl) (fun _ _ => rfl)

/-! ### A read of an OMEM word of the run (log entry 10) -/

/-- A pixel step that is still to come is of the run. -/
theorem inRun_of_ahead {i : Nat} {s : State} (h : s.ahead i = true) : s.inRun i = true := by
  rw [State.ahead, Bool.and_eq_true] at h
  exact h.1

theorem hostReadOmem_coin {i : Nat} {s : State} (hr : s.inRun i = true) (hc : s.coin = true) :
    hostReadOmem i s = s.drawCoin.replyFrom s.race.before i := by
  rw [hostReadOmem, if_pos hr, if_pos hc]

theorem hostReadOmem_behind {i : Nat} {s : State} (hr : s.inRun i = true) (hc : s.coin = false)
    (ha : s.ahead i = false) : hostReadOmem i s = s.drawCoin.replyFrom s.race.stored i := by
  rw [hostReadOmem, if_pos hr, if_neg (Bool.eq_false_iff.mp hc), if_neg (Bool.eq_false_iff.mp ha)]

/-- The reply ahead of the scan position is the transform of the word that the engine holds from then on. -/
theorem hostReadOmem_early {i : Nat} {s : State} {f : Word → Word} (ha : s.ahead i = true) (hc : s.coin = false)
    (hf : runFunction s = some f) :
    staleWord (hostReadOmem i s).race.stale i = some (s.drawCoin.fetchWord i) ∧
      (hostReadOmem i s).replies = f (s.drawCoin.fetchWord i) :: s.replies := by
  have hdrawn : runFunction s.drawCoin = some f := hf
  have heq : hostReadOmem i s = (s.drawCoin.hold i).reply (f (s.drawCoin.fetchWord i)) := by
    rw [hostReadOmem, if_pos (inRun_of_ahead ha), if_neg (Bool.eq_false_iff.mp hc), if_pos ha]
    simp only [State.replyEarly, hdrawn, hold_fetchWord]
  rw [heq]
  refine ⟨hold_held i s.drawCoin, ?_⟩
  obtain ⟨st, d, hhold⟩ := hold_frame i s.drawCoin
  rw [hhold]; rfl

/-- The early reply leaves what the engine holds of the other words. -/
theorem replyEarly_stale_other {i j : Nat} (h : j ≠ i) (s : State) :
    staleWord (s.replyEarly i).race.stale j = staleWord s.race.stale j := by
  unfold State.replyEarly
  split
  · exact hold_other h s
  · rfl

/-- A read of OMEM leaves what the engine holds of the other words. -/
theorem hostReadOmem_stale_other {i j : Nat} (h : j ≠ i) (s : State) :
    staleWord (hostReadOmem i s).race.stale j = staleWord s.race.stale j := by
  unfold hostReadOmem
  split
  · split
    · rfl
    · split
      · exact replyEarly_stale_other h s.drawCoin
      · rfl
  · rfl

/-- What the engine reads is the word it holds, or, where it holds none, IMEM's. -/
theorem fetchWord_held_or_imem (i : Nat) (s : State) :
    staleWord s.race.stale i = some (s.fetchWord i) ∨
      staleWord s.race.stale i = none ∧ ∃ n, s.fetchWord i = memWord s.imem i n := by
  cases h : staleWord s.race.stale i with
  | some x => exact .inl (by rw [fetchWord_held h])
  | none => exact .inr ⟨rfl, _, fetchWord_free h⟩

/-- A read of OMEM adds one reply, leaves both memories and touches no word but the one read. -/
theorem hostReadOmem_frame (i : Nat) (s : State) :
    ∃ v, (hostReadOmem i s).replies = v :: s.replies ∧ (hostReadOmem i s).imem = s.imem ∧
      (hostReadOmem i s).omem = s.omem ∧ SameBesideWord i s (hostReadOmem i s) := by
  obtain ⟨v, st, d, hf⟩ := hostReadMem_frame .omem i s
  replace hf : hostReadOmem i s =
      { s with race := { s.race with stale := st }, replies := v :: s.replies, draws := d } := hf
  have hstale : ∀ j, j ≠ i → staleWord st j = staleWord s.race.stale j := fun j hj => by
    simpa only [hf] using hostReadOmem_stale_other hj s
  rw [hf]
  exact ⟨v, rfl, rfl, rfl, sameBesideWord_update d _ (fun _ _ => rfl) (fun _ _ => rfl) hstale (fun _ _ => Iff.rfl)
    (fun _ _ => rfl)⟩

/-! ### A write of an OMEM word of the run (log entry 10) -/

theorem hostWriteOmem_ahead {i : Nat} {s : State} (h : s.ahead i = true) (w : Word) :
    hostWriteOmem i w s = s.raceAhead i w := by
  rw [hostWriteOmem, if_pos h]

theorem hostWriteOmem_behind {i : Nat} {s : State} (hr : s.inRun i = true) (ha : s.ahead i = false) (w : Word) :
    hostWriteOmem i w s = s.raceBehind i w := by
  rw [hostWriteOmem, if_neg (Bool.eq_false_iff.mp ha), if_pos hr]

/-- The coin of the last write says whether it remains; of the other words nothing is said anew. -/
theorem mem_kept_raceAhead (i j : Nat) (w : Word) (s : State) :
    j ∈ (s.raceAhead i w).race.kept ↔ if j = i then s.coin = true else j ∈ s.race.kept := by
  rw [State.raceAhead_race]
  cases s.coin <;> by_cases h : j = i <;> simp [h]

/-- What the engine's store leaves of its own word: the word in OMEM where it is kept, else the word stored (R61). -/
theorem memWord_storeOmem (i n : Nat) (x : Word) (u : State) :
    memWord (u.storeOmem i x) i n = if i ∈ u.race.kept then memWord u.omem i n else x := by
  unfold State.storeOmem
  split
  · rfl
  · exact memWord_memWriteWord_same ..

/-- After a write ahead of the scan position, the engine's store leaves by the coin the host's word or its own, in
every state with the same word and the same record for it. -/
theorem memWord_storeOmem_raceAhead {i n : Nat} {w x : Word} {s u : State}
    (homem : ∀ a, inWord i a → memByte u.omem a = memByte (s.raceAhead i w).omem a)
    (hkept : i ∈ u.race.kept ↔ i ∈ (s.raceAhead i w).race.kept) :
    memWord (u.storeOmem i x) i n = if s.coin = true then w else x := by
  have hword : memWord u.omem i n = w := by
    rw [memWord_congr (fun a hl hu => homem a ⟨hl, hu⟩) n, State.raceAhead_omem, memWord_memWriteWord_same]
  have hcoin : i ∈ u.race.kept ↔ s.coin = true := by rw [hkept, mem_kept_raceAhead, if_pos rfl]
  simp only [memWord_storeOmem, hword, hcoin]

theorem raceAhead_sameBesideWord (i : Nat) (w : Word) (s : State) : SameBesideWord i s (s.raceAhead i w) :=
  sameBesideWord_update _ s.replies (fun _ _ => rfl) (fun _ ha => memByte_memWriteWord_notInWord ha) (fun _ _ => rfl)
    (fun j hj => (mem_kept_raceAhead i j w s).trans (by rw [if_neg hj]))
    (fun _ ha => memByte_memWriteWord_notInWord ha)

/-- Behind the scan position the coin leaves the new word or the one the engine stored. -/
theorem memWord_raceBehind (i n : Nat) (w : Word) (s : State) :
    memWord (s.raceBehind i w).omem i n = if s.coin then w else memWord s.race.stored i (s.draws + 1) := by
  rw [State.raceBehind_omem, memWord_memWriteWord_same]

theorem raceBehind_sameBesideWord (i : Nat) (w : Word) (s : State) : SameBesideWord i s (s.raceBehind i w) :=
  sameBesideWord_update _ s.replies (fun _ _ => rfl) (fun _ ha => memByte_memWriteWord_notInWord ha) (fun _ _ => rfl)
    (fun _ _ => Iff.rfl) (fun _ ha => memByte_memWriteWord_notInWord ha)

/-! ### The three accesses together -/

/-- Settles O40: each access by its equation for the coin and the scan position. -/
theorem racingAccessHasOneOfItsOutcomes : Obligations.RacingAccessHasOneOfItsOutcomes := by
  refine ⟨fun s i w ha hi => ?imemWrite, fun s i hr hi => ?omemRead, fun s i w hr hi => ?omemWrite⟩
  case imemWrite =>
    have hbeside := hostWriteImem_sameBesideWord i w s
    obtain ⟨st, d, hf⟩ := hostWriteImem_frame i w s
    exact ⟨hostWriteImem i w s, hostMove_writeMem hi .imem w, fun _ hx => hostWriteImem_fetchWord_held hx,
      fun hn hc => ⟨_, hostWriteImem_fetchWord_coin ha hn hc⟩, fun hn hc => hostWriteImem_fetchWord_noCoin ha hn hc,
      fun n => memWord_memWriteWord_same s.imem i n w, by rw [hf], by rw [hf], hbeside⟩
  case omemRead =>
    obtain ⟨v, hv, himem, homem, hbeside⟩ := hostReadOmem_frame i s
    have reply_eq : ∀ x, (hostReadOmem i s).replies = x :: s.replies → v = x :=
      fun x hx => List.head_eq_of_cons_eq (hv.symm.trans hx)
    refine ⟨hostReadOmem i s, v, hostMove_readMem hi .omem, hv, fun hc => ?_, fun hc ha => ?_, fun hc ha f hf => ?_,
      himem, homem, hbeside⟩
    · exact ⟨s.draws + 1, reply_eq _ (by rw [hostReadOmem_coin hr hc]; rfl)⟩
    · exact ⟨s.draws + 1, reply_eq _ (by rw [hostReadOmem_behind hr hc ha]; rfl)⟩
    · obtain ⟨hheld, hreply⟩ := hostReadOmem_early ha hc hf
      rw [fetchWord_held hheld]
      exact ⟨reply_eq _ hreply, hheld, fetchWord_held_or_imem i s.drawCoin⟩
  case omemWrite =>
    refine ⟨hostWriteOmem i w s, hostMove_writeMem hi .omem w, ?_⟩
    cases ha : s.ahead i with
    | true =>
      rw [hostWriteOmem_ahead ha]
      exact ⟨fun _ => ⟨fun n => memWord_memWriteWord_same s.omem i n w,
          fun u x n homem hkept => memWord_storeOmem_raceAhead homem hkept⟩,
        fun h => absurd h (by decide), fun h => absurd h (by decide),
        fun n => memWord_memWriteWord_same s.race.before i n w, rfl, rfl, raceAhead_sameBesideWord i w s⟩
    | false =>
      rw [hostWriteOmem_behind hr ha]
      refine ⟨fun h => absurd h (by decide), fun _ hc n => ?_, fun _ hc hw n k => ?_,
        fun n => memWord_memWriteWord_same s.race.before i n w, rfl, rfl, raceBehind_sameBesideWord i w s⟩
      · rw [memWord_raceBehind, if_pos hc]
      · rw [memWord_raceBehind, hc, if_neg Bool.false_ne_true, memWord_written hw _ k]

end Sys2Proof.Machine

/-! PROOF. The decoder, the encoder and the opcode table (R71, R73 to R75), and the instruction a step runs: the one OP
decodes to, or the one a placed word decodes to (O1, O2, O3, O7, O9). -/

namespace Sys2Proof.Machine

/-! ### The command word (R71) -/

/-- Two words agree under a mask of the low `n` bits exactly when they agree in each of those bits. -/
theorem and_lowMask_eq_iff {w n : Nat} (hn : n ≤ w) (x y : BitVec w) :
    x &&& BitVec.ofNat w (2 ^ n - 1) = y &&& BitVec.ofNat w (2 ^ n - 1) ↔
      ∀ i < n, x.getLsbD i = y.getLsbD i := by
  have mask (i : Nat) : (BitVec.ofNat w (2 ^ n - 1)).getLsbD i = decide (i < n) := by
    rw [BitVec.getLsbD_ofNat, Nat.testBit_two_pow_sub_one, ← Bool.decide_and]
    exact decide_eq_decide.mpr ⟨And.right, fun h => ⟨by omega, h⟩⟩
  constructor
  · intro h i hi
    have hbit := congrArg (·.getLsbD i) h
    simpa [BitVec.getLsbD_and, mask, hi] using hbit
  · intro h
    refine BitVec.eq_of_getLsbD_eq fun i _ => ?_
    rw [BitVec.getLsbD_and, BitVec.getLsbD_and, mask]
    by_cases hi : i < n
    · rw [h i hi]
    · simp [hi]

/-- The mask 1 keeps bit 0. -/
theorem and_one_eq_iff (c d : Word) : c &&& 1#32 = d &&& 1#32 ↔ c.getLsbD 0 = d.getLsbD 0 := by
  simpa using and_lowMask_eq_iff (n := 1) (by decide) c d

/-- The mask 3 keeps bits 0 and 1. -/
theorem and_three_eq_iff (c d : Word) :
    c &&& 3#32 = d &&& 3#32 ↔ c.getLsbD 0 = d.getLsbD 0 ∧ c.getLsbD 1 = d.getLsbD 1 := by
  simpa [Nat.le_one_iff_eq_zero_or_eq_one] using and_lowMask_eq_iff (n := 2) (by decide) c d

/-- The decoder reads a command word by its two command bits. -/
theorem decode_ctrl (c : Word) :
    decode (.ctrl c) = if c.getLsbD 0 then .instr .start else if c.getLsbD 1 then .instr .clr
      else .rejected .noCommand := rfl

theorem decode_ctrl_eq_start_iff (c : Word) : decode (.ctrl c) = .instr .start ↔ c.getLsbD 0 = true := by
  rw [decode_ctrl]
  cases c.getLsbD 0 <;> cases c.getLsbD 1 <;> decide

theorem decode_ctrl_eq_clr_iff (c : Word) :
    decode (.ctrl c) = .instr .clr ↔ c.getLsbD 0 = false ∧ c.getLsbD 1 = true := by
  rw [decode_ctrl]
  cases c.getLsbD 0 <;> cases c.getLsbD 1 <;> decide

theorem decode_ctrl_eq_noCommand_iff (c : Word) :
    decode (.ctrl c) = .rejected .noCommand ↔ c.getLsbD 0 = false ∧ c.getLsbD 1 = false := by
  rw [decode_ctrl]
  cases c.getLsbD 0 <;> cases c.getLsbD 1 <;> decide

/-- Bits 31..2 of a command word never matter. -/
theorem decode_ctrl_congr {c d : Word} (h0 : d.getLsbD 0 = c.getLsbD 0) (h1 : d.getLsbD 1 = c.getLsbD 1) :
    decode (.ctrl d) = decode (.ctrl c) := by
  rw [decode_ctrl, decode_ctrl, h0, h1]

/-- Settles O3: the values 1, 2 and 0 of the masked word are the words 1, 2 and 0 under the same mask, so each clause
compares the command bits of `c` with those of a known word. -/
theorem commandWordIsReadByItsTwoBits : Obligations.CommandWordIsReadByItsTwoBits := by
  intro c
  refine ⟨?_, ?_, ?_, fun d h => ?_⟩
  · rw [decode_ctrl_eq_start_iff]
    exact (and_one_eq_iff c 1#32).symm
  · rw [decode_ctrl_eq_clr_iff]
    exact (and_three_eq_iff c 2#32).symm
  · rw [decode_ctrl_eq_noCommand_iff]
    exact (and_three_eq_iff c 0#32).symm
  · obtain ⟨h0, h1⟩ := (and_three_eq_iff d c).mp h
    exact decode_ctrl_congr h0 h1

/-! ### The encoder and the opcode table (R73 to R75) -/

theorem decode_encode (i : Instr) : decode (encode i) = .instr i := by
  cases i <;> rfl

/-- A word that the decoder reads as an instruction is not the reserved code and has a command bit set. -/
theorem wf_of_decode {c : Code} {i : Instr} (h : decode c = .instr i) : c.wf = true := by
  cases c with
  | op4 op =>
    refine bne_iff_ne.mpr fun ho => ?_
    subst ho
    cases h
  | ctrl v =>
    refine bne_iff_ne.mpr fun hv => ?_
    obtain ⟨_, _, noCommand, _⟩ := commandWordIsReadByItsTwoBits v
    rw [noCommand.mpr hv] at h
    cases h

/-- Settles O1: the decoder inverts the encoder, and it reads instructions from well-formed words only. -/
theorem decodeOfEncodeIsTheInstruction : Obligations.DecodeOfEncodeIsTheInstruction :=
  fun i => ⟨wf_of_decode (decode_encode i), decode_encode i⟩

theorem decodeTableWord_eq_some_iff {nbits w : Nat} {i : Instr} :
    decodeTableWord nbits w = some i ↔ decode (codeOfTableWord nbits w) = .instr i := by
  unfold decodeTableWord
  split <;> simp [*]

/-- A row whose word is the encoder's decodes to its instruction. -/
theorem decodeTableWord_of_encode {nbits w : Nat} {i : Instr} (h : codeOfTableWord nbits w = encode i) :
    decodeTableWord nbits w = some i := by
  rw [decodeTableWord_eq_some_iff, h, decode_encode]

/-- Settles O2: the operation codes and START's word 1 are the encoder's; the other command words are read by their
bits. -/
theorem opcodeTableWordsDecode : Obligations.OpcodeTableWordsDecode := by
  have row {nbits w : Nat} {i : Instr} := decodeTableWord_of_encode (nbits := nbits) (w := w) (i := i)
  refine ⟨row rfl, row rfl, row rfl, row rfl, row rfl, row rfl, rfl, row rfl, ?_, ?_, rfl, by decide, rfl⟩
  · exact decodeTableWord_eq_some_iff.mpr ((decode_ctrl_eq_start_iff 3#32).mpr rfl)
  · exact decodeTableWord_eq_some_iff.mpr ((decode_ctrl_eq_clr_iff 0xFFFFFFFE#32).mpr ⟨rfl, rfl⟩)

/-! ### The instruction a step runs (R74, R85) -/

theorem step_noTurn {s : State} (h : s.turns = []) : step s = engineTurn s := by
  simp only [step, nextTurn, h]

theorem step_engine {s : State} {rest : List Turn} (h : s.turns = .engine :: rest) :
    step s = engineTurn { s with turns := rest } := by
  simp only [step, nextTurn, h, takeTurn]

/-- An enabled pixel step runs the instruction that OP decodes to. -/
theorem engineTurn_pixel {s : State} {i : Instr} (hp : s.pixelEnabled = true) (hi : decode (.op4 s.op) = .instr i) :
    engineTurn s = exec i s := by
  simp only [engineTurn, hp, if_true, hi]

/-- Settles O7: neither the enabling of the pixel step nor OP reads the list of turns. -/
theorem engineStepRunsTheDecodedTransform : Obligations.EngineStepRunsTheDecodedTransform := by
  refine fun s i hp hi => ⟨fun hn => ?_, fun rest he => ?_⟩
  · rw [step_noTurn hn, engineTurn_pixel hp hi]
  · rw [step_engine he]
    exact engineTurn_pixel (s := { s with turns := rest }) hp hi

/-- The pixel step of the 1 by 1 raster that an operation code is placed in is enabled. -/
theorem presentCode_op4_pixelEnabled (op : BitVec 4) (s : State) : (s.presentCode (.op4 op)).pixelEnabled = true :=
  (pixelEnabled_iff _).mpr ⟨busy_of_status_eq_one rfl, Nat.zero_lt_one, Nat.zero_lt_one⟩

/-- A placed code runs at the very next step: an operation code in an engine turn, a command word in a host turn. -/
theorem step_presentCode {c : Code} {i : Instr} (h : decode c = .instr i) (s : State) :
    step (s.presentCode c) = exec i { s.presentCode c with turns := s.turns } := by
  cases c with
  | op4 op =>
    obtain ⟨_, engineListed⟩ :=
      engineStepRunsTheDecodedTransform (s.presentCode (.op4 op)) i (presentCode_op4_pixelEnabled op s) h
    exact engineListed s.turns rfl
  | ctrl v =>
    obtain ⟨_, _, controlWrite⟩ := controlWriteRunsTheDecodedCommand
    obtain ⟨runsCommand, _⟩ := controlWrite (s.presentCode (.ctrl v)) v s.turns rfl
    exact runsCommand i h

/-- Settles O9. -/
theorem placedWordRunsNext : Obligations.PlacedWordRunsNext :=
  fun s _ _ _ h => step_presentCode (decodeTableWord_eq_some_iff.mp h) s

end Sys2Proof.Machine

/-! PROOF. The engine's steps: which is enabled, what the finish step leaves, that every pixel step copies alpha and is a
function of the opcode and the colours, and that legal turns complete (R85 to R89, R97, R99; O10, O11, O29, O30, O45). -/

namespace Sys2Proof.Machine

/-! ### Which step is enabled (R85) -/

/-- The two steps exclude each other: an empty row or the row below the last has no pixel. -/
theorem not_pixelEnabled_of_finishEnabled {s : State} (h : s.finishEnabled = true) : s.pixelEnabled = false := by
  obtain ⟨_, hend⟩ := (finishEnabled_iff s).mp h
  refine Bool.eq_false_iff.mpr fun hp => ?_
  obtain ⟨_, hw, hy⟩ := (pixelEnabled_iff s).mp hp
  rcases hend with hempty | hlast
  · rw [hempty] at hw; exact absurd hw (by decide)
  · rw [hlast] at hy; omega

/-- A scan position of R31 is inside the raster, where the pixel step is enabled, or at one of the two ends. -/
theorem State.Inv.pixelEnabled_or_finishEnabled {s : State} (h : s.Inv) (hb : s.busy = true) :
    s.pixelEnabled = true ∨ s.finishEnabled = true := by
  rcases h.runScan hb with ⟨hx, hy⟩ | ⟨_, hend⟩ | ⟨hempty, _⟩
  · exact .inl ((pixelEnabled_iff s).mpr ⟨hb, Nat.zero_lt_of_lt hx, hy⟩)
  · exact .inr ((finishEnabled_iff s).mpr ⟨hb, .inr hend⟩)
  · exact .inr ((finishEnabled_iff s).mpr ⟨hb, .inl hempty⟩)

theorem not_enabled_of_idle {s : State} (h : s.busy = false) : s.pixelEnabled = false ∧ s.finishEnabled = false := by
  simp [State.pixelEnabled, State.finishEnabled, h]

theorem engineTurn_finish {s : State} (h : s.finishEnabled = true) : engineTurn s = .next s.finishRun := by
  simp [engineTurn, not_pixelEnabled_of_finishEnabled h, h]

theorem engineTurn_noStep {s : State} (hp : s.pixelEnabled = false) (hf : s.finishEnabled = false) :
    engineTurn s = .next s := by
  simp [engineTurn, hp, hf]

theorem engineTurn_idle {s : State} (h : s.busy = false) : engineTurn s = .next s := by
  obtain ⟨hp, hf⟩ := not_enabled_of_idle h
  exact engineTurn_noStep hp hf

/-- Settles O10: of the two steps at least one is enabled in a run that keeps the invariant, and never both. -/
theorem oneEngineStepIsEnabledWhileBusy : Obligations.OneEngineStepIsEnabledWhileBusy := by
  intro s
  refine ⟨pixelEnabled_iff s, ?_, fun hinv hb => ?_, fun hb => ?_⟩
  · rw [finishEnabled_iff, BitVec.toNat_eq, BitVec.toNat_ofNat, Nat.zero_mod]
  · cases hf : s.finishEnabled with
    | true => exact not_pixelEnabled_of_finishEnabled hf
    | false => exact (hinv.pixelEnabled_or_finishEnabled hb).resolve_right (by simp [hf])
  · obtain ⟨hp, hf⟩ := not_enabled_of_idle hb
    exact ⟨hp, hf, engineTurn_idle hb⟩

/-! ### The finish step (R87) -/

theorem execStart_accepted {s : State} (hb : s.busy = false) (ho : s.op ≠ 15#4)
    (hr : s.rasterSize ≤ s.config.memPixels) : execStart s = .next s.clearReport.beginRun := by
  simp [execStart, hb, ho, Nat.not_lt.mpr hr]

/-- At the origin of a raster without pixels the run is at its end. -/
theorem beginRun_finishEnabled {s : State} (h : s.rasterSize = 0) : s.beginRun.finishEnabled = true := by
  refine (finishEnabled_iff _).mpr ⟨s.beginRun_busy, ?_⟩
  rw [State.beginRun_width, State.beginRun_scany, State.beginRun_height]
  exact (Nat.mul_eq_zero.mp h).imp BitVec.eq_of_toNat_eq fun hh => (BitVec.eq_of_toNat_eq hh).symm

/-- Settles O11: both clauses are the equation of the finish step, in any state it is enabled in and in the state a START
of an empty raster leaves. -/
theorem finishStepEndsTheRun : Obligations.FinishStepEndsTheRun := by
  refine ⟨fun s hf => ?_, fun s hb ho hempty => ?_⟩
  · obtain ⟨hb, _⟩ := (finishEnabled_iff s).mp hf
    have noError (hinv : s.Inv) : s.finishRun.err = false ∧ s.finishRun.errcode = 0#2 := by
      rw [State.finishRun_err, State.err, hinv.status_busy hb]
      exact ⟨rfl, hinv.errcode_busy hb⟩
    exact ⟨s.finishRun, engineTurn_finish hf, s.finishRun_busy, s.finishRun_done, s.finishRun_err, noError,
      rfl, rfl, rfl, rfl, rfl, rfl, rfl, rfl, rfl, rfl, rfl, engineTurn_idle s.finishRun_busy⟩
  · have hstart : exec .start s = .next s.clearReport.beginRun :=
      execStart_accepted hb ho (hempty ▸ Nat.zero_le _)
    have hfinish : s.clearReport.beginRun.finishEnabled = true := beginRun_finishEnabled (s := s.clearReport) hempty
    refine ⟨_, _, hstart, engineTurn_finish hfinish, State.finishRun_busy _, State.finishRun_done _, ?_, ?_⟩
    · rw [State.finishRun_imem, State.beginRun_imem, State.clearReport_imem]
    · rw [State.finishRun_omem, State.beginRun_omem, State.clearReport_omem]

/-! ### Alpha (R89) -/

/-- The word a pixel step stores has the alpha of the word it read, whatever its transform. -/
theorem pixelFunction_alpha (T : Colour → Colour) (w : Word) :
    (pixelFunction T w).extractLsb' 24 8 = w.extractLsb' 24 8 := by
  have hpixel : unpack (pixelFunction T w) = outPixel T (unpack w) := unpack_pack _
  exact congrArg Pixel.a hpixel

/-- Settles O29: a pixel step computes its word by `pixelFunction`, for every code, and stores it where no racing host
write remains. -/
theorem alphaIsCopiedByEveryPixelStep : Obligations.AlphaIsCopiedByEveryPixelStep := by
  intro s t hp ht
  rcases engineTurn_cases ht with ⟨_, T, _, _, _, rfl⟩ | ⟨_, hn, _⟩ | ⟨hn, _⟩
  · refine ⟨pixelFunction_alpha T _, fun hkept n => ?_⟩
    rw [State.afterPixel_omem, memWord_storeOmem, if_neg hkept, pixelFunction_alpha]
  · rw [hp] at hn; cases hn
  · rw [hp] at hn; cases hn

/-! ### Purity (R99) -/

/-- In a state that is ready an operation code takes the pixel step with its transform (R98). -/
theorem exec_ready {i : Instr} {s : State} {T : Colour → Colour} (hT : transformOf s.config i = some T)
    (hr : s.pixelReady) : exec i s = .next (s.afterPixel T) := by
  rw [exec_transform hT, pixelStep_ready hr]

/-- POUT's colours are the transform's of PIN's and of nothing else. -/
theorem exec_colour {i : Instr} {s t : State} {T : Colour → Colour} (hT : transformOf s.config i = some T)
    (hr : s.pixelReady) (h : exec i s = .next t) : t.pout.colour = T t.pin.colour := by
  rw [exec_ready hT hr] at h
  cases h
  rfl

/-- Settles O30: the transform is chosen by the opcode and the parameters alone. -/
theorem transformsArePure : Obligations.TransformsArePure := by
  intro i s s' t t' hs hc hconfig hr hr' ht ht' hin
  obtain ⟨T, hT⟩ := transformOf_of_ne_command s.config hs hc
  have hT' : transformOf s'.config i = some T := hconfig ▸ hT
  calc t.pout.colour = T t.pin.colour := exec_colour hT hr ht
    _ = T t'.pin.colour := by rw [hin]
    _ = t'.pout.colour := (exec_colour hT' hr' ht').symm

/-! ### Every legal turn completes (R97, R201, R209, R214) -/

/-- The engine's turn completes: its two faults are in states that break the invariant. -/
theorem engineTurn_completes {s : State} (h : s.Inv) : ∃ t, engineTurn s = .next t := by
  cases hp : s.pixelEnabled with
  | true =>
    obtain ⟨hb, _⟩ := (pixelEnabled_iff s).mp hp
    obtain ⟨i, T, hi, hT⟩ := decodeOp_transform s.config s.op (h.runCode hb)
    exact ⟨_, (engineTurn_pixel hp hi).trans (exec_ready hT ⟨hp, h.scanIndex_lt hp⟩)⟩
  | false =>
    cases hf : s.finishEnabled with
    | true => exact ⟨_, engineTurn_finish hf⟩
    | false => exact ⟨s, engineTurn_noStep hp hf⟩

/-- A START that is refused reports an error and completes (R211). -/
theorem execStart_completes (s : State) : ∃ t, execStart s = .next t := by
  unfold execStart
  split_ifs <;> exact ⟨_, rfl⟩

theorem execClr_completes (s : State) : ∃ t, execClr s = .next t := by
  unfold execClr
  split_ifs <;> exact ⟨_, rfl⟩

/-- A write to CTRL is START, CLR or nothing; a write to any other register is never a fault. -/
theorem hostWriteReg_completes (idx : BitVec 3) (v : Word) (s : State) : ∃ t, hostWriteReg idx v s = .next t := by
  by_cases hr : decodeReg idx = .ctrl
  · rw [eq_zero_of_decodeReg_ctrl hr]
    cases h0 : v.getLsbD 0 with
    | true =>
      rw [hostWriteReg_command ((decode_ctrl_eq_start_iff v).mpr h0)]
      exact execStart_completes s
    | false =>
      cases h1 : v.getLsbD 1 with
      | true =>
        rw [hostWriteReg_command ((decode_ctrl_eq_clr_iff v).mpr ⟨h0, h1⟩)]
        exact execClr_completes s
      | false => exact ⟨s, hostWriteReg_noCommand ((decode_ctrl_eq_noCommand_iff v).mpr ⟨h0, h1⟩) s⟩
  · refine ⟨writeReg (decodeReg idx) v s, ?_⟩
    unfold hostWriteReg
    split
    · exact absurd ‹_› hr
    · rfl

/-- A legal host move is not refused, whatever the state. -/
theorem hostMove_completes {m : HostMove} {s : State} (h : m.wf s.config.memPixels = true) :
    ∃ t, hostMove m s = .next t := by
  cases m with
  | writeReg idx v => rw [hostMove_writeReg]; exact hostWriteReg_completes idx v s
  | readReg idx => exact ⟨hostReadReg idx s, rfl⟩
  | writeMem sp i w => exact ⟨_, hostMove_writeMem (of_decide_eq_true h) sp w⟩
  | readMem sp i => exact ⟨_, hostMove_readMem (of_decide_eq_true h) sp⟩

/-- Settles O45, by the kind of the turn. -/
theorem legalTurnsAlwaysComplete : Obligations.LegalTurnsAlwaysComplete := by
  intro s hinv hlegal
  cases hturns : s.turns with
  | nil => rw [step_noTurn hturns]; exact engineTurn_completes hinv
  | cons u rest =>
    have hu : u.wf s.config.memPixels = true := hlegal u (by simp [hturns])
    cases u with
    | host m => rw [step_host hturns]; exact hostMove_completes hu
    | engine => rw [step_engine hturns]; exact engineTurn_completes (hinv.withTurns rest)
    | reset => exact ⟨_, step_reset hturns⟩

end Sys2Proof.Machine

/-! PROOF. The quantiser (R12, R90, R91): truncation is monotone and fixes the integers, so it commutes with clamping
between integers (O6). -/

namespace Sys2Proof.Machine

/-! ### Clamping (R12) -/

theorem clamp_eq_max_min {lo hi : Int} (h : lo ≤ hi) (v : Int) : clamp lo hi v = max lo (min hi v) := by
  unfold clamp
  split_ifs <;> omega

theorem clampQ_eq_max_min {lo hi : ℚ} (h : lo ≤ hi) (v : ℚ) : clampQ lo hi v = max lo (min hi v) := by
  unfold clampQ
  split_ifs with hlo hhi
  · rw [min_eq_right (hlo.le.trans h), max_eq_left hlo.le]
  · rw [min_eq_left hhi.le, max_eq_right h]
  · rw [min_eq_right (not_lt.mp hhi), max_eq_right (not_lt.mp hlo)]

theorem clamp_clamp {lo hi : Int} (h : lo ≤ hi) (v : Int) : clamp lo hi (clamp lo hi v) = clamp lo hi v := by
  simp only [clamp_eq_max_min h]
  omega

/-- Scaling by a positive number carries the bounds of a clamping with it. -/
theorem mul_clampQ {k lo hi : ℚ} (hk : 0 < k) (v : ℚ) : k * clampQ lo hi v = clampQ (k * lo) (k * hi) (k * v) := by
  simp only [clampQ, mul_lt_mul_iff_right₀ hk]
  split_ifs <;> rfl

/-- The byte a clamping stores is the clamped integer: it fits 8 bits. -/
theorem clampByte_toNat (v : Int) : ((clampByte v).toNat : Int) = clamp 0 255 v := by
  rw [clampByte, BitVec.toNat_ofNat, clamp_eq_max_min (by decide)]
  omega

theorem clampByte_clamp (v : Int) : clampByte (clamp 0 255 v) = clampByte v := by
  rw [clampByte, clamp_clamp (by decide), clampByte]

/-! ### Truncation (R12) -/

theorem trunc_of_nonneg {q : ℚ} (h : 0 ≤ q) : trunc q = ⌊q⌋ := if_pos h

theorem trunc_of_neg {q : ℚ} (h : q < 0) : trunc q = ⌈q⌉ := if_neg h.not_ge

theorem trunc_intCast (n : Int) : trunc n = n := by
  rcases le_or_gt 0 (n : ℚ) with h | h
  · rw [trunc_of_nonneg h, Int.floor_intCast]
  · rw [trunc_of_neg h, Int.ceil_intCast]

/-- Across zero the truncations lie on either side of it. -/
theorem trunc_mono : Monotone trunc := by
  intro p q hpq
  rcases le_or_gt 0 p with hp | hp
  · rw [trunc_of_nonneg hp, trunc_of_nonneg (hp.trans hpq)]
    exact Int.floor_mono hpq
  · rw [trunc_of_neg hp]
    rcases le_or_gt 0 q with hq | hq
    · rw [trunc_of_nonneg hq]
      exact (Int.ceil_le.mpr (by exact_mod_cast hp.le)).trans (Int.floor_nonneg.mpr hq)
    · rw [trunc_of_neg hq]
      exact Int.ceil_mono hpq

/-- Truncation commutes with clamping between integers. -/
theorem trunc_clampQ {lo hi : Int} (h : lo ≤ hi) (q : ℚ) : trunc (clampQ lo hi q) = clamp lo hi (trunc q) := by
  rw [clampQ_eq_max_min (by exact_mod_cast h), clamp_eq_max_min h, trunc_mono.map_max, trunc_mono.map_min,
    trunc_intCast, trunc_intCast]

/-- On a quotient of integers truncation is the truncating division: on either side of zero both are the division of
the absolute values. -/
theorem trunc_div (a : Int) {b : Int} (hb : 0 < b) : trunc ((a : ℚ) / b) = Int.tdiv a b := by
  have hbQ : (0 : ℚ) < b := by exact_mod_cast hb
  have floor_div (n : Int) : ⌊(n : ℚ) / b⌋ = n / b := by
    lift b to ℕ using hb.le
    exact_mod_cast Rat.floor_intCast_div_natCast n b
  rcases le_or_gt 0 a with ha | ha
  · have hq : 0 ≤ (a : ℚ) / b := div_nonneg (by exact_mod_cast ha) hbQ.le
    rw [trunc_of_nonneg hq, floor_div, Int.tdiv_eq_ediv_of_nonneg ha]
  · have hq : (a : ℚ) / b < 0 := div_neg_of_neg_of_pos (by exact_mod_cast ha) hbQ
    calc trunc ((a : ℚ) / b) = -⌊((-a : Int) : ℚ) / b⌋ := by
          rw [trunc_of_neg hq, Int.cast_neg, neg_div, Int.floor_neg, neg_neg]
      _ = -Int.tdiv (-a) b := by rw [floor_div, Int.tdiv_eq_ediv_of_nonneg (by omega)]
      _ = Int.tdiv a b := by rw [Int.neg_tdiv, neg_neg]

/-! ### The quantiser (R90, R91) -/

/-- Clamping to the byte range first changes no stored byte. -/
theorem quantise_clampQ (q : ℚ) : quantise (clampQ 0 255 q) = quantise q := by
  have hcommute : trunc (clampQ 0 255 q) = clamp 0 255 (trunc q) := trunc_clampQ (by decide) q
  rw [quantise, hcommute, clampByte_clamp, quantise]

theorem quantise_div (a : Int) {b : Int} (hb : 0 < b) : quantise ((a : ℚ) / b) = quantDiv a b := by
  rw [quantise, trunc_div a hb, quantDiv]

/-- Of a quotient that is not negative only the upper bound can be met. -/
theorem quantDiv_of_nonneg {a b : Int} (ha : 0 ≤ a) (hb : 0 < b) : ((quantDiv a b).toNat : Int) = min 255 (a / b) := by
  have hq : 0 ≤ a / b := Int.ediv_nonneg ha hb.le
  rw [quantDiv, clampByte_toNat, Int.tdiv_eq_ediv_of_nonneg ha, clamp_eq_max_min (by decide)]
  omega

/-- Settles O6: truncation commutes with clamping, the scaling carries [0, 1] to [0, 255], and truncation is the
truncating division. -/
theorem quantiserEqualities : Obligations.QuantiserEqualities := by
  refine ⟨fun q => ?_, fun v => ?_, fun a b hb => ⟨quantise_div a hb, clampByte_toNat _, fun ha => ?_⟩⟩
  · exact congrArg _ (trunc_clampQ (lo := 0) (hi := 255) (by decide) q).symm
  · rw [mul_clampQ (by norm_num), mul_zero, mul_one, quantise_clampQ]
  · exact quantDiv_of_nonneg ha hb

end Sys2Proof.Machine

/-! PROOF SUPPORT. What a pixel step with any transform leaves, once for the statements of all fifteen (R86 to R89). -/

namespace Sys2Proof.Machine

/-- A pixel step leaves the result of its transform and nothing else. -/
theorem afterPixel_result (T : Colour → Colour) {s : State} (hr : s.pixelReady) :
    PixelStepResult T s (s.afterPixel T) where
  pin := rfl
  colours := rfl
  alpha := rfl
  stored := fun hkept n => by
    rw [State.afterPixel_omem, memWord_storeOmem, if_neg hkept]
    rfl
  kept := fun hkept => by rw [State.afterPixel_omem, State.storeOmem, if_pos hkept]
  others := fun _ ha => storeOmem_other ha
  imem := rfl
  scan := by
    obtain ⟨_, hw, hy⟩ := (pixelEnabled_iff s).mp hr.1
    exact nextPos_toNat hw hy
  op := rfl
  width := rfl
  height := rfl
  status := rfl
  errcode := rfl
  config := rfl
  stale := rfl
  keeping := rfl
  before := rfl
  record := rfl
  turns := rfl
  replies := rfl

/-- In a ready state an operation code completes, with the result of its transform. -/
theorem exec_pixelStepResult {i : Instr} {s : State} {T : Colour → Colour} (hT : transformOf s.config i = some T)
    (hr : s.pixelReady) : ∃ t, exec i s = .next t ∧ PixelStepResult T s t :=
  ⟨_, exec_ready hT hr, afterPixel_result T hr⟩

end Sys2Proof.Machine

/-! PROOF. The grayscale transforms: GRAY is the rule's luma and leaves a gray as it is (R110, R117; O12, O53). -/

namespace Sys2Proof.Machine

/-- The integer form is the formula over the common denominator 1000. -/
theorem grayColour_eq_grayFormula (c : Colour) : grayColour c = grayFormula c := by
  have hluma : 299 / 1000 * chanQ c.c1 + 587 / 1000 * chanQ c.c2 + 114 / 1000 * chanQ c.c3 =
      ((299 * chan c.c1 + 587 * chan c.c2 + 114 * chan c.c3 : Int) : ℚ) / (1000 : Int) := by
    unfold chanQ
    push_cast
    ring
  rw [grayColour, grayFormula, hluma, quantise_div _ (by decide)]

/-- Settles O12: the transform is the formula, and its pixel step is every pixel step. -/
theorem grayStoresTheLuma : Obligations.GrayStoresTheLuma := by
  have hT : grayColour = grayFormula := funext grayColour_eq_grayFormula
  exact ⟨rfl, grayColour_eq_grayFormula, fun s hr => exec_pixelStepResult (hT ▸ rfl) hr⟩

/-- The weights of the luma add up to 1, so a gray is its own luma. -/
theorem grayColour_gray (b : Byte) : grayColour ⟨b, b, b⟩ = ⟨b, b, b⟩ := by
  have hluma : quantDiv (299 * chan b + 587 * chan b + 114 * chan b) 1000 = b := by
    have hb := b.isLt
    have hq := quantDiv_of_nonneg (a := 299 * chan b + 587 * chan b + 114 * chan b) (b := 1000)
      (by unfold chan; omega) (by decide)
    apply BitVec.eq_of_toNat_eq
    unfold chan at hq ⊢
    omega
  rw [grayColour, hluma]

/-- Settles O53: both transforms put one byte in all three channels, and GRAY keeps such a colour. -/
theorem grayOfGrayIsUnchanged : Obligations.GrayOfGrayIsUnchanged :=
  fun _ => ⟨rfl, rfl, rfl, rfl, grayColour_gray _, grayColour_gray _⟩

end Sys2Proof.Machine

/-! PROOF. The threshold table of PGRAY is the sRGB curve (R111 to R114; O13, O28): where the scaled curve reaches a
level is a comparison of integers, which holds from the level's entry of the table on. -/

namespace Sys2Proof.Machine

/-! ### Where the scaled curve reaches a level -/

/-- A power with a rational exponent is compared by whole powers. -/
theorem le_rpow_div_iff {a x : ℝ} (ha : 0 ≤ a) (hx : 0 ≤ x) (p : ℕ) {q : ℕ} (hq : q ≠ 0) :
    a ≤ x ^ ((p : ℝ) / (q : ℝ)) ↔ a ^ q ≤ x ^ p := by
  have hpow : (x ^ ((p : ℝ) / (q : ℝ))) ^ q = x ^ p := by
    rw [← Real.rpow_natCast, ← Real.rpow_mul hx, div_mul_cancel₀ _ (by exact_mod_cast hq), Real.rpow_natCast]
  rw [← pow_le_pow_iff_left₀ ha (Real.rpow_nonneg hx _) hq, hpow]

/-- 255 times the curve of R112 at `n / 2550000` is at least `k`, in integers: the linear branch ends between 7983 and
7984, and the power branch is compared by 12th powers. -/
def levelReached (k n : Nat) : Bool :=
  if n ≤ 7983 then decide (1000000 * k ≤ 1292 * n)
  else decide ((40 * k + 561) ^ 12 * 2550000 ^ 5 ≤ 10761 ^ 12 * n ^ 5)

theorem levelReached_linear {n : Nat} (h : n ≤ 7983) (k : Nat) :
    levelReached k n = true ↔ 1000000 * k ≤ 1292 * n := by
  rw [levelReached, if_pos h, decide_eq_true_iff]

theorem levelReached_power {n : Nat} (h : 7983 < n) (k : Nat) :
    levelReached k n = true ↔ (40 * k + 561) ^ 12 * 2550000 ^ 5 ≤ 10761 ^ 12 * n ^ 5 := by
  rw [levelReached, if_neg h.not_ge, decide_eq_true_iff]

/-- The integer comparison is the comparison with the real curve. -/
theorem le_srgbCurve_iff {n : Nat} {y : ℝ} (h : IsSrgbCurve ((n : ℝ) / 2550000) y) (k : Nat) :
    (k : ℝ) ≤ 255 * y ↔ levelReached k n = true := by
  obtain ⟨hlinear, hpower⟩ := h
  rcases le_or_gt n 7983 with hn | hn
  · have hnR : (n : ℝ) ≤ 7983 := by exact_mod_cast hn
    have hy := hlinear (by linarith)
    calc (k : ℝ) ≤ 255 * y ↔ 1000000 * (k : ℝ) ≤ 1292 * n := by
          rw [hy]; constructor <;> intro hle <;> linarith
      _ ↔ levelReached k n = true := by rw [levelReached_linear hn]; exact_mod_cast Iff.rfl
  · have hnR : (7984 : ℝ) ≤ n := by exact_mod_cast hn
    have hy := hpower (by linarith)
    calc (k : ℝ) ≤ 255 * y
        ↔ (40 * (k : ℝ) + 561) / 10761 ≤ ((n : ℝ) / 2550000) ^ (((5 : ℕ) : ℝ) / ((12 : ℕ) : ℝ)) := by
          rw [hy]; push_cast; constructor <;> intro hle <;> linarith
      _ ↔ ((40 * (k : ℝ) + 561) / 10761) ^ 12 ≤ ((n : ℝ) / 2550000) ^ 5 :=
          le_rpow_div_iff (by positivity) (by positivity) 5 (by decide)
      _ ↔ (40 * (k : ℝ) + 561) ^ 12 * 2550000 ^ 5 ≤ 10761 ^ 12 * (n : ℝ) ^ 5 := by
          rw [div_pow, div_pow, div_le_div_iff₀ (by positivity) (by positivity), mul_comm ((n : ℝ) ^ 5)]
      _ ↔ levelReached k n = true := by rw [levelReached_power hn]; exact_mod_cast Iff.rfl

/-- The curve does not fall, across the end of the linear branch included: that branch reaches no level above 10, and
the power branch begins above level 10. -/
theorem levelReached_mono {k n m : Nat} (hnm : n ≤ m) (h : levelReached k n = true) : levelReached k m = true := by
  rcases le_or_gt m 7983 with hm | hm
  · rw [levelReached_linear hm]
    rw [levelReached_linear (hnm.trans hm)] at h
    omega
  · rw [levelReached_power hm]
    rcases le_or_gt n 7983 with hn | hn
    · rw [levelReached_linear hn] at h
      calc (40 * k + 561) ^ 12 * 2550000 ^ 5 ≤ (40 * 10 + 561) ^ 12 * 2550000 ^ 5 :=
            Nat.mul_le_mul_right _ (Nat.pow_le_pow_left (by omega) _)
        _ ≤ 10761 ^ 12 * 7984 ^ 5 := by norm_num
        _ ≤ 10761 ^ 12 * m ^ 5 := Nat.mul_le_mul_left _ (Nat.pow_le_pow_left hm _)
    · rw [levelReached_power hn] at h
      exact h.trans (Nat.mul_le_mul_left _ (Nat.pow_le_pow_left hnm _))

/-- White reaches the levels up to 255: there the curve is 1. -/
theorem levelReached_white (k : Nat) : levelReached k 2550000 = true ↔ k ≤ 255 := by
  rw [levelReached_power (by decide), Nat.mul_le_mul_right_iff (by decide), Nat.pow_le_pow_iff_left (by decide)]
  omega

theorem scaled_srgbCurve_nonneg {n : Nat} {y : ℝ} (h : IsSrgbCurve ((n : ℝ) / 2550000) y) : 0 ≤ 255 * y := by
  have hzero : levelReached 0 n = true := levelReached_mono (Nat.zero_le n) (by decide)
  exact_mod_cast (le_srgbCurve_iff h 0).mpr hzero

/-! ### The entries of the table -/

/-- `t` reaches level `k` and the numerator before it does not. -/
def firstReaches (k t : Nat) : Bool := levelReached k t && !levelReached k (t - 1)

/-- From such an entry on, and only from there, the level is reached. -/
theorem levelReached_iff_of_firstReaches {k t : Nat} (h : firstReaches k t = true) (n : Nat) :
    levelReached k n = true ↔ t ≤ n := by
  rw [firstReaches, Bool.and_eq_true, Bool.not_eq_true'] at h
  obtain ⟨hat, hbefore⟩ := h
  refine ⟨fun hn => ?_, fun hn => levelReached_mono hn hat⟩
  by_contra hlt
  have hreached := levelReached_mono (show n ≤ t - 1 by omega) hn
  rw [hbefore] at hreached
  cases hreached

/-- The entries of the list are where the levels `k`, `k + 1` and so on are first reached. -/
def firstReachesFrom : Nat → List Nat → Bool
  | _, [] => true
  | k, t :: rest => firstReaches k t && firstReachesFrom (k + 1) rest

theorem firstReachesFrom_cons {k t : Nat} {rest : List Nat} :
    firstReachesFrom k (t :: rest) = true ↔ firstReaches k t = true ∧ firstReachesFrom (k + 1) rest = true := by
  rw [firstReachesFrom, Bool.and_eq_true]

theorem firstReachesFrom_append (k : Nat) (l l' : List Nat) :
    firstReachesFrom k (l ++ l') = (firstReachesFrom k l && firstReachesFrom (k + l.length) l') := by
  induction l generalizing k with
  | nil => simp [firstReachesFrom]
  | cons t rest ih =>
    rw [List.cons_append, firstReachesFrom, firstReachesFrom, ih, Bool.and_assoc, List.length_cons,
      Nat.add_right_comm, Nat.add_assoc]

theorem firstReaches_getD {k i : Nat} {l : List Nat} (h : firstReachesFrom k l = true) (hi : i < l.length) :
    firstReaches (k + i) (l.getD i 0) = true := by
  induction l generalizing k i with
  | nil => cases hi
  | cons t rest ih =>
    obtain ⟨hfirst, hrest⟩ := firstReachesFrom_cons.mp h
    cases i with
    | zero => exact hfirst
    | succ i =>
      rw [List.getD_cons_succ, show k + (i + 1) = k + 1 + i by omega]
      exact ih hrest (Nat.lt_of_succ_lt_succ hi)

theorem pgrayThrRows0_length : pgrayThrRows0.flatten.length = 100 := rfl

theorem pgrayThrRows1_length : pgrayThrRows1.flatten.length = 100 := rfl

theorem pgrayThrRows2_length : pgrayThrRows2.flatten.length = 55 := rfl

theorem pgrayThr_eq_append :
    pgrayThr = pgrayThrRows0.flatten ++ pgrayThrRows1.flatten ++ pgrayThrRows2.flatten := by
  rw [pgrayThr, pgrayThrRows, List.flatten_append, List.flatten_append]

theorem pgrayThr_length : pgrayThr.length = 255 := by
  rw [pgrayThr_eq_append, List.length_append, List.length_append, pgrayThrRows0_length, pgrayThrRows1_length,
    pgrayThrRows2_length]

theorem pgrayThrRows0_firstReaches : firstReachesFrom 1 pgrayThrRows0.flatten = true := by decide

theorem pgrayThrRows1_firstReaches : firstReachesFrom 101 pgrayThrRows1.flatten = true := by decide

theorem pgrayThrRows2_firstReaches : firstReachesFrom 201 pgrayThrRows2.flatten = true := by decide

/-- Every entry of the table is where its level is first reached (R113). -/
theorem pgrayThr_firstReaches : firstReachesFrom 1 pgrayThr = true := by
  rw [pgrayThr_eq_append, firstReachesFrom_append, firstReachesFrom_append, List.length_append,
    pgrayThrRows0_length, pgrayThrRows1_length, pgrayThrRows0_firstReaches, pgrayThrRows1_firstReaches,
    pgrayThrRows2_firstReaches]
  rfl

/-- Entry `k` bounds the numerators that reach level `k` from below. -/
theorem levelReached_iff_pgrayThr {k : Nat} (hk : 1 ≤ k) (hk' : k ≤ 255) (n : Nat) :
    levelReached k n = true ↔ pgrayThr.getD (k - 1) 0 ≤ n := by
  have hfirst := firstReaches_getD pgrayThr_firstReaches (i := k - 1) (by rw [pgrayThr_length]; omega)
  rw [Nat.add_sub_cancel' hk] at hfirst
  exact levelReached_iff_of_firstReaches hfirst n

/-! ### Counting the entries -/

theorem countAtOrBelow_append (l l' : List Nat) (n : Nat) :
    countAtOrBelow (l ++ l') n = countAtOrBelow l n + countAtOrBelow l' n := by
  induction l with
  | nil => simp [countAtOrBelow]
  | cons t rest ih =>
    simp only [List.cons_append, countAtOrBelow, ih]
    split <;> omega

theorem countRows_flatten (rows : List (List Nat)) (n : Nat) : countRows rows n = countAtOrBelow rows.flatten n := by
  induction rows with
  | nil => rfl
  | cons row rest ih => rw [countRows, ih, List.flatten_cons, countAtOrBelow_append]

/-- Where the levels reached are those up to `m`, the entries at or below the numerator are those of these levels. -/
theorem countAtOrBelow_of_firstReaches {k n m : Nat} {l : List Nat} (hl : firstReachesFrom k l = true)
    (hm : ∀ j, levelReached j n = true ↔ j ≤ m) : countAtOrBelow l n = min (m + 1 - k) l.length := by
  induction l generalizing k with
  | nil => simp [countAtOrBelow]
  | cons t rest ih =>
    obtain ⟨hfirst, hrest⟩ := firstReachesFrom_cons.mp hl
    have hreached : t ≤ n ↔ k ≤ m := (levelReached_iff_of_firstReaches hfirst n).symm.trans (hm k)
    rw [countAtOrBelow, ih hrest, List.length_cons]
    split_ifs with ht <;> omega

/-- The level of a numerator is the scaled curve, truncated (R113). -/
theorem pgrayLevel_eq_floor {n : Nat} {y : ℝ} (hn : n ≤ 2550000) (h : IsSrgbCurve ((n : ℝ) / 2550000) y) :
    ((pgrayLevel n : Nat) : Int) = ⌊255 * y⌋ := by
  have hm : ∀ j, levelReached j n = true ↔ j ≤ ⌊255 * y⌋₊ := fun j =>
    (le_srgbCurve_iff h j).symm.trans (Nat.le_floor_iff (scaled_srgbCurve_nonneg h)).symm
  have hmax : ⌊255 * y⌋₊ ≤ 255 := (levelReached_white _).mp (levelReached_mono hn ((hm _).mpr le_rfl))
  have hcount : pgrayLevel n = ⌊255 * y⌋₊ := by
    rw [pgrayLevel, countRows_flatten, ← pgrayThr, countAtOrBelow_of_firstReaches pgrayThr_firstReaches hm,
      pgrayThr_length]
    omega
  rw [hcount, Int.natCast_floor_eq_floor (scaled_srgbCurve_nonneg h)]

/-- Settles O28: entry by entry, and by counting. -/
theorem pgrayThresholdsAreTheCurve : Obligations.PgrayThresholdsAreTheCurve := by
  refine ⟨fun k hk hk' => ⟨?_, fun n y _ hy => ?_⟩, fun n y hn hy => ?_⟩
  · exact (levelReached_iff_pgrayThr hk hk' _).mp ((levelReached_white k).mpr hk')
  · rw [le_srgbCurve_iff hy, levelReached_iff_pgrayThr hk hk']
  · exact pgrayLevel_eq_floor hn hy

/-! ### PGRAY's pixel step -/

theorem pgrayNumerator_le (c : Colour) : pgrayNumerator c ≤ 2550000 := by
  have h1 := c.c1.isLt
  have h2 := c.c2.isLt
  have h3 := c.c3.isLt
  unfold pgrayNumerator
  omega

theorem countAtOrBelow_le_length (l : List Nat) (n : Nat) : countAtOrBelow l n ≤ l.length := by
  induction l with
  | nil => exact le_rfl
  | cons t rest ih =>
    rw [countAtOrBelow, List.length_cons]
    split <;> omega

theorem pgrayLevel_le (n : Nat) : pgrayLevel n ≤ 255 := by
  rw [pgrayLevel, countRows_flatten, ← pgrayThr, ← pgrayThr_length]
  exact countAtOrBelow_le_length _ n

/-- The luminance of the rule over the common denominator 2550000 (R111). -/
theorem linearLuminance_eq (c : Colour) :
    2126 / 10000 * ((c.c1.toNat : ℝ) / 255) + 7152 / 10000 * ((c.c2.toNat : ℝ) / 255) +
      722 / 10000 * ((c.c3.toNat : ℝ) / 255) = (pgrayNumerator c : ℝ) / 2550000 := by
  unfold pgrayNumerator
  push_cast
  ring

/-- The byte PGRAY stores is the scaled curve of the luminance, quantised. -/
theorem pgrayColour_isQuantised {c : Colour} {y : ℝ} (h : IsSrgbCurve ((pgrayNumerator c : ℝ) / 2550000) y) :
    IsQuantised (255 * y) (pgrayColour c).c1 := by
  have hle := pgrayLevel_le (pgrayNumerator c)
  have hbyte : (pgrayColour c).c1.toNat = pgrayLevel (pgrayNumerator c) := Nat.mod_eq_of_lt (by omega)
  rw [IsQuantised, if_pos (scaled_srgbCurve_nonneg h), ← pgrayLevel_eq_floor (pgrayNumerator_le c) h, hbyte]
  omega

/-- Settles O13: the pixel step is every pixel step, and its three channels are the one quantised level. -/
theorem pgrayStoresTheEncodedLuminance : Obligations.PgrayStoresTheEncodedLuminance := by
  refine ⟨rfl, fun s hr => ⟨_, exec_ready rfl hr, afterPixel_result pgrayColour hr, rfl, rfl, fun y hy => ?_⟩⟩
  rw [State.afterPixel_pout]
  exact pgrayColour_isQuantised ((linearLuminance_eq _) ▸ hy)

end Sys2Proof.Machine

/-! PROOF. RGB to and from YCbCr and YUV (R120 to R126; O14 to O17, O54, O55): each integer form is the formula over
its common denominator; RGB2YCBCR meets no clamp, so a stored channel is a floor, and the round trip's error is that of
the floors carried through the second matrix. -/

namespace Sys2Proof.Machine

/-! ### The formulas and their pixel steps (R120 to R123) -/

/-- R91 (iii) for a formula `q` that is the quotient `a / b` written out. -/
theorem quantDiv_eq_quantise {q : ℚ} {a b : Int} (hb : 0 < b) (h : (a : ℚ) / b = q) : quantDiv a b = quantise q := by
  rw [← h, quantise_div a hb]

theorem rgb2ycbcrColour_eq_formula (c : Colour) : rgb2ycbcrColour c = rgb2ycbcrFormula c := by
  simp only [rgb2ycbcrColour, rgb2ycbcrFormula, chanQ, Colour.mk.injEq]
  refine ⟨?y, ?cb, ?cr⟩ <;> exact quantDiv_eq_quantise (by decide) (by push_cast; ring)

theorem ycbcr2rgbColour_eq_formula (c : Colour) : ycbcr2rgbColour c = ycbcr2rgbFormula c := by
  simp only [ycbcr2rgbColour, ycbcr2rgbFormula, chanQ, Colour.mk.injEq]
  refine ⟨?r, ?g, ?b⟩ <;> exact quantDiv_eq_quantise (by decide) (by push_cast; ring)

/-- The luma keeps its three decimals inside U and V, so their denominator is 1000000. -/
theorem rgb2yuvColour_eq_formula (c : Colour) : rgb2yuvColour c = rgb2yuvFormula c := by
  simp only [rgb2yuvColour, rgb2yuvFormula, chanQ, Colour.mk.injEq]
  refine ⟨?y, ?u, ?v⟩ <;> exact quantDiv_eq_quantise (by decide) (by push_cast; ring)

theorem yuv2rgbColour_eq_formula (c : Colour) : yuv2rgbColour c = yuv2rgbFormula c := by
  simp only [yuv2rgbColour, yuv2rgbFormula, chanQ, Colour.mk.injEq]
  refine ⟨?r, ?g, ?b⟩ <;> exact quantDiv_eq_quantise (by decide) (by push_cast; ring)

/-- A pixel step of an integer form leaves the result of the formula that it equals. -/
theorem exec_formulaResult {i : Instr} {s : State} {T F : Colour → Colour} (hF : ∀ c, T c = F c)
    (hT : transformOf s.config i = some T) (hr : s.pixelReady) : ∃ t, exec i s = .next t ∧ PixelStepResult F s t :=
  funext hF ▸ exec_pixelStepResult hT hr

/-- Settles O14: the integer form over the denominator 1000 is the formula of R120, and its step is every pixel step. -/
theorem rgb2ycbcrStoresItsFormula : Obligations.Rgb2ycbcrStoresItsFormula :=
  ⟨rfl, rgb2ycbcrColour_eq_formula, fun _ => exec_formulaResult rgb2ycbcrColour_eq_formula rfl⟩

/-- Settles O15: the same of R121, whose clamps are the quantiser's. -/
theorem ycbcr2rgbStoresItsFormula : Obligations.Ycbcr2rgbStoresItsFormula :=
  ⟨rfl, ycbcr2rgbColour_eq_formula, fun _ => exec_formulaResult ycbcr2rgbColour_eq_formula rfl⟩

/-- Settles O16: the same of R122, with the luma unquantised inside U and V. -/
theorem rgb2yuvStoresItsFormula : Obligations.Rgb2yuvStoresItsFormula :=
  ⟨rfl, rgb2yuvColour_eq_formula, fun _ => exec_formulaResult rgb2yuvColour_eq_formula rfl⟩

/-- Settles O17: the same of R123. -/
theorem yuv2rgbStoresItsFormula : Obligations.Yuv2rgbStoresItsFormula :=
  ⟨rfl, yuv2rgbColour_eq_formula, fun _ => exec_formulaResult yuv2rgbColour_eq_formula rfl⟩

/-! ### The stored channels of RGB2YCBCR are floors (R124) -/

theorem chan_bounds (b : Byte) : 0 ≤ chan b ∧ chan b ≤ 255 := by
  have hb := b.isLt
  unfold chan
  omega

/-- Of a quotient inside the byte range neither bound is met. -/
theorem chan_quantDiv {a b : Int} (hb : 0 < b) (ha : 0 ≤ a) (hlt : a < 256 * b) : chan (quantDiv a b) = a / b := by
  have hq : a / b < 256 := Int.ediv_lt_of_lt_mul hb hlt
  rw [chan, quantDiv_of_nonneg ha hb]
  omega

/-- The extremes of each linear form over the colour cube lie inside the byte range. -/
theorem chan_rgb2ycbcrColour (c : Colour) :
    chan (rgb2ycbcrColour c).c1 = (257 * chan c.c1 + 504 * chan c.c2 + 98 * chan c.c3 + 16000) / 1000 ∧
    chan (rgb2ycbcrColour c).c2 = (-148 * chan c.c1 - 291 * chan c.c2 + 439 * chan c.c3 + 128000) / 1000 ∧
    chan (rgb2ycbcrColour c).c3 = (439 * chan c.c1 - 368 * chan c.c2 - 71 * chan c.c3 + 128000) / 1000 := by
  have hr := chan_bounds c.c1
  have hg := chan_bounds c.c2
  have hb := chan_bounds c.c3
  refine ⟨?y, ?cb, ?cr⟩ <;> exact chan_quantDiv (by decide) (by omega) (by omega)

/-- The chroma weights of each row add up to 0, so a gray keeps only the offset 128. -/
theorem rgb2ycbcrColour_gray (b : Byte) :
    (rgb2ycbcrColour ⟨b, b, b⟩).c2 = 128#8 ∧ (rgb2ycbcrColour ⟨b, b, b⟩).c3 = 128#8 := by
  have hcb : -148 * chan b - 291 * chan b + 439 * chan b + 128000 = 128000 := by ring
  have hcr : 439 * chan b - 368 * chan b - 71 * chan b + 128000 = 128000 := by ring
  simp only [rgb2ycbcrColour, hcb, hcr]
  decide

/-- Settles O54: the ranges are those of the three floors. -/
theorem ycbcrStaysInItsDigitalRange : Obligations.YcbcrStaysInItsDigitalRange := by
  rintro ⟨r, g, b⟩
  obtain ⟨hy, hcb, hcr⟩ := chan_rgb2ycbcrColour ⟨r, g, b⟩
  have hr := r.isLt
  have hg := g.isLt
  have hb := b.isLt
  unfold chan at hy hcb hcr
  refine ⟨by omega, by omega, by omega, by omega, by omega, by omega, fun hrg hgb => ?gray⟩
  obtain rfl : r = g := hrg
  obtain rfl : r = b := hgb
  exact rgb2ycbcrColour_gray r

/-! ### The round trip (R126) -/

/-- A quotient within `k` of a byte is stored within `k` of it: the clamp only moves it toward the byte, and the
truncation only toward zero. -/
theorem chan_quantDiv_within {a b k : Int} {v : Byte} (hb : 0 < b) (hk : 0 ≤ k) (hlo : (chan v - k) * b ≤ a)
    (hhi : a < (chan v + k + 1) * b) : |chan (quantDiv a b) - chan v| ≤ k := by
  have hv := chan_bounds v
  have hstored : chan (quantDiv a b) = max 0 (min 255 (Int.tdiv a b)) := by
    rw [chan, quantDiv, clampByte_toNat, clamp_eq_max_min (by decide)]
  rw [hstored, abs_le]
  rcases le_or_gt 0 a with ha | ha
  · have hfloor : chan v - k ≤ a / b := Int.le_ediv_of_mul_le hb hlo
    have hfloor' : a / b < chan v + k + 1 := Int.ediv_lt_of_lt_mul hb hhi
    rw [Int.tdiv_eq_ediv_of_nonneg ha]
    omega
  · have hneg : chan v - k < 0 := neg_of_mul_neg_left (hlo.trans_lt ha) hb.le
    have hzero : 0 ≤ Int.tdiv (-a) b := Int.tdiv_nonneg (by omega) hb.le
    rw [Int.neg_tdiv] at hzero
    omega

/-- Settles O55: each decoded numerator is 1000 times its channel up to the three floors' remainders and the rounding
of the coefficients, which together stay below 4000. -/
theorem ycbcrRoundTripIsWithinFour : Obligations.YcbcrRoundTripIsWithinFour := by
  refine ⟨fun c => ?_, by decide⟩
  obtain ⟨hy, hcb, hcr⟩ := chan_rgb2ycbcrColour c
  have hr := chan_bounds c.c1
  have hg := chan_bounds c.c2
  have hb := chan_bounds c.c3
  refine ⟨?r, ?g, ?b⟩ <;> exact chan_quantDiv_within (by decide) (by decide) (by omega) (by omega)

end Sys2Proof.Machine

/-! PROOF. RGB to and from XYZ with any matrix (R138, R139, R141; O18, O19): a row's formula drops its clamp and is then
the quotient over the row's denominator. -/

namespace Sys2Proof.Machine

/-- R91 (ii): the quantiser's clamp makes the formula's own clamp to [0, 1] superfluous. -/
theorem quantise_scaled_clampQ (v : ℚ) : quantise (255 * clampQ 0 1 v) = quantise (255 * v) :=
  have ⟨_, hclamp, _⟩ := quantiserEqualities
  hclamp v

/-- The scaling by 255 undoes the normalisation of the channels, which leaves one quotient over the denominator. -/
theorem rowOutput_eq_rowFormula {row : MatrixRow} (hden : 0 < row.den) (c : Colour) :
    rowOutput row c = rowFormula row c := by
  rw [rowFormula, quantise_scaled_clampQ]
  refine quantDiv_eq_quantise (by exact_mod_cast hden) ?_
  simp only [norm, chanQ]
  push_cast
  ring

theorem matrixColour_eq_matrixFormula {m : Matrix3} (h1 : 0 < m.row1.den) (h2 : 0 < m.row2.den)
    (h3 : 0 < m.row3.den) (c : Colour) : matrixColour m c = matrixFormula m c := by
  rw [matrixColour, matrixFormula, rowOutput_eq_rowFormula h1, rowOutput_eq_rowFormula h2, rowOutput_eq_rowFormula h3]

theorem rgb2xyzColour_eq_formula {cfg : Config} (h : cfg.wf) (c : Colour) :
    rgb2xyzColour cfg c = matrixFormula cfg.xyzFwd c :=
  have ⟨_, h1, h2, h3, _⟩ := h
  matrixColour_eq_matrixFormula h1 h2 h3 c

theorem xyz2rgbColour_eq_formula {cfg : Config} (h : cfg.wf) (c : Colour) :
    xyz2rgbColour cfg c = matrixFormula cfg.xyzInv c :=
  have ⟨_, _, _, _, h1, h2, h3⟩ := h
  matrixColour_eq_matrixFormula h1 h2 h3 c

/-- Settles O18: each row of the forward matrix is its formula, and the pixel step is every pixel step. -/
theorem rgb2xyzStoresTheForwardMatrix : Obligations.Rgb2xyzStoresTheForwardMatrix :=
  ⟨rfl, fun _ c h => rgb2xyzColour_eq_formula h c, fun _ h => exec_formulaResult (rgb2xyzColour_eq_formula h) rfl⟩

/-- Settles O19: the same of the inverse matrix. -/
theorem xyz2rgbStoresTheInverseMatrix : Obligations.Xyz2rgbStoresTheInverseMatrix :=
  ⟨rfl, fun _ c h => xyz2rgbColour_eq_formula h c, fun _ h => exec_formulaResult (xyz2rgbColour_eq_formula h) rfl⟩

end Sys2Proof.Machine

/-! PROOF SUPPORT. The stored hue (R146, R147): for a chromatic colour the hue is 60 times a wrapped numerator over the
chroma, and that numerator lies below 6 times the chroma. -/

namespace Sys2Proof.Machine

theorem quantise_zero : quantise 0 = 0#8 := by
  rw [quantise, ← Int.cast_zero, trunc_intCast]
  decide

/-- `d` of R146: the maximum of the channels less their minimum. -/
def chroma (r g b : Int) : Int := max3 r g b - min3 r g b

/-- `a` of R147 after the wrap: the hue of a chromatic colour is `60 * a / d`. -/
def wrappedHue (r g b : Int) : Int :=
  if hueNumerator r g b < 0 then hueNumerator r g b + 6 * chroma r g b else hueNumerator r g b

theorem max3_cast (a b c : Int) : ((max3 a b c : Int) : ℚ) = max (a : ℚ) (max b c) := by
  rw [max3, Int.cast_max, Int.cast_max]

theorem min3_cast (a b c : Int) : ((min3 a b c : Int) : ℚ) = min (a : ℚ) (min b c) := by
  rw [min3, Int.cast_min, Int.cast_min]

theorem chroma_cast (r g b : Int) : ((chroma r g b : Int) : ℚ) = max3 r g b - min3 r g b := by
  rw [chroma, Int.cast_sub]

theorem chroma_nonneg (r g b : Int) : 0 ≤ chroma r g b := by
  unfold chroma max3 min3
  omega

theorem hueByte_of_achromatic {r g b : Int} (h : chroma r g b = 0) : hueByte r g b = 0#8 := if_pos h

theorem hueByte_of_chromatic {r g b : Int} (h : chroma r g b ≠ 0) :
    hueByte r g b = quantDiv (255 * wrappedHue r g b) (6 * chroma r g b) := if_neg h

theorem hueNumerator_eq (r g b : Int) :
    hueNumerator r g b =
      if r = max3 r g b then g - b
      else if g = max3 r g b then 2 * chroma r g b + (b - r)
      else 4 * chroma r g b + (r - g) := rfl

/-- Around red the numerator is at most `d` on either side of 0, around green of `2 * d`, around blue of `4 * d`. -/
theorem hueNumerator_bounds (r g b : Int) :
    -chroma r g b ≤ hueNumerator r g b ∧ hueNumerator r g b ≤ 5 * chroma r g b := by
  rw [hueNumerator_eq]
  unfold chroma max3 min3
  split_ifs <;> omega

theorem wrappedHue_bounds {r g b : Int} (h : chroma r g b ≠ 0) :
    0 ≤ wrappedHue r g b ∧ wrappedHue r g b < 6 * chroma r g b := by
  have hd := chroma_nonneg r g b
  have ha := hueNumerator_bounds r g b
  unfold wrappedHue
  split_ifs <;> omega

/-- The wrapped numerator is short of a full turn, so the stored hue is short of 255 (R145, R147). -/
theorem hueByte_toNat_le (r g b : Int) : (hueByte r g b).toNat ≤ 254 := by
  rcases eq_or_ne (chroma r g b) 0 with hd | hd
  · rw [hueByte_of_achromatic hd]
    decide
  · obtain ⟨h0, hturn⟩ := wrappedHue_bounds hd
    have hquot : 255 * wrappedHue r g b / (6 * chroma r g b) < 255 := Int.ediv_lt_of_lt_mul (by omega) (by omega)
    have hbyte := quantDiv_of_nonneg (a := 255 * wrappedHue r g b) (b := 6 * chroma r g b) (by omega) (by omega)
    rw [hueByte_of_chromatic hd]
    omega

/-- The three sector formulas of R146 over the common denominator `d`. -/
theorem sectorFormula_eq {r g b : Int} (hd : (chroma r g b : ℚ) ≠ 0) :
    (if r = max3 r g b then ((g : ℚ) - b) / chroma r g b
      else if g = max3 r g b then 2 + ((b : ℚ) - r) / chroma r g b
      else 4 + ((r : ℚ) - g) / chroma r g b) = (hueNumerator r g b : ℚ) / chroma r g b := by
  rw [hueNumerator_eq]
  split_ifs <;> push_cast <;> field_simp

theorem hueDegrees_of_achromatic {r g b : Int} (h : chroma r g b = 0) : hueDegrees r g b = 0 := by
  simp only [hueDegrees, ← max3_cast, ← min3_cast, ← chroma_cast, h, Int.cast_zero, if_true]

theorem hueDegrees_of_chromatic {r g b : Int} (h : chroma r g b ≠ 0) :
    hueDegrees r g b = 60 * (wrappedHue r g b / chroma r g b) := by
  have hd : (chroma r g b : ℚ) ≠ 0 := by exact_mod_cast h
  have hpos : (0 : ℚ) < chroma r g b := lt_of_le_of_ne (by exact_mod_cast chroma_nonneg r g b) hd.symm
  have hwrap : 60 * ((hueNumerator r g b : ℚ) / chroma r g b) < 0 ↔ hueNumerator r g b < 0 := by
    rw [← mul_div_assoc, div_lt_iff₀ hpos, zero_mul]
    norm_cast
    omega
  simp only [hueDegrees, ← max3_cast, ← min3_cast, ← chroma_cast, Int.cast_inj, sectorFormula_eq hd, hwrap, if_neg hd,
    wrappedHue]
  split_ifs
  · push_cast
    field_simp
    ring
  · rfl

/-- The stored hue is the rule's: 360 degrees are 6 sectors (R147). -/
theorem hueByte_eq_quantise (r g b : Int) : hueByte r g b = quantise (hueDegrees r g b / 360 * 255) := by
  rcases eq_or_ne (chroma r g b) 0 with hd | hd
  · rw [hueByte_of_achromatic hd, hueDegrees_of_achromatic hd, zero_div, zero_mul, quantise_zero]
  · have hpos := lt_of_le_of_ne (chroma_nonneg r g b) hd.symm
    rw [hueByte_of_chromatic hd, hueDegrees_of_chromatic hd]
    refine quantDiv_eq_quantise (by omega) ?_
    push_cast
    ring

end Sys2Proof.Machine

/-! PROOF. The two encoders (R148, R151; O20, O22, O58): the normalisation cancels in every quotient, and every guard of
the formulas is the guard of the integer forms. -/

namespace Sys2Proof.Machine

theorem max_norm_eq (x y z : Byte) :
    max (norm x) (max (norm y) (norm z)) = (max3 (chan x) (chan y) (chan z) : ℚ) / 255 := by
  have h : (0 : ℚ) ≤ 255 := by norm_num
  simp only [norm, chanQ, max_div_div_right h, max3_cast]

theorem min_norm_eq (x y z : Byte) :
    min (norm x) (min (norm y) (norm z)) = (min3 (chan x) (chan y) (chan z) : ℚ) / 255 := by
  have h : (0 : ℚ) ≤ 255 := by norm_num
  simp only [norm, chanQ, min_div_div_right h, min3_cast]

/-- `L <= 1/2` is `mx + mn <= 255` (R148). -/
theorem lightness_le_half_iff (mx mn : Int) : ((mx : ℚ) / 255 + mn / 255) / 2 ≤ 1 / 2 ↔ mx + mn ≤ 255 := by
  rw [← add_div, div_div, div_le_div_iff₀ (by norm_num) (by norm_num), ← Int.cast_le (R := ℚ)]
  push_cast
  constructor <;> intro h <;> linarith

/-- The saturation of HLS: off the grays both denominators are positive (R153). -/
theorem hlsSaturation_eq_quantise {mx mn : Int} (h0 : 0 ≤ mn) (hle : mn ≤ mx) (h1 : mx ≤ 255) :
    hlsSaturation mx mn = quantise ((if (mx : ℚ) / 255 = mn / 255 then 0
      else if ((mx : ℚ) / 255 + mn / 255) / 2 ≤ 1 / 2 then ((mx : ℚ) / 255 - mn / 255) / (mx / 255 + mn / 255)
      else ((mx : ℚ) / 255 - mn / 255) / (2 - mx / 255 - mn / 255)) * 255) := by
  have hgray : (mx : ℚ) / 255 = mn / 255 ↔ mx - mn = 0 := by
    rw [div_left_inj' (by norm_num), Int.cast_inj, sub_eq_zero]
  simp only [hlsSaturation, hgray, lightness_le_half_iff]
  split_ifs with hd hsm
  · rw [zero_mul, quantise_zero]
  · refine quantDiv_eq_quantise (by omega) ?_
    have hne : (mx : ℚ) + mn ≠ 0 := by exact_mod_cast (by omega : mx + mn ≠ 0)
    push_cast
    field_simp
  · refine quantDiv_eq_quantise (by omega) ?_
    have hne : (510 : ℚ) - (mx + mn) ≠ 0 := by exact_mod_cast (by omega : 510 - (mx + mn) ≠ 0)
    have hden : (2 : ℚ) - mx / 255 - mn / 255 = (510 - (mx + mn)) / 255 := by ring
    rw [hden]
    push_cast
    field_simp

theorem rgb2hlsColour_eq_formula (c : Colour) : rgb2hlsColour c = rgb2hlsFormula c := by
  have hr := chan_bounds c.c1
  have hg := chan_bounds c.c2
  have hb := chan_bounds c.c3
  simp only [rgb2hlsColour, rgb2hlsFormula, max_norm_eq, min_norm_eq, Colour.mk.injEq]
  refine ⟨hueByte_eq_quantise _ _ _, quantDiv_eq_quantise (by decide) ?lightness,
    hlsSaturation_eq_quantise (le_min hr.1 (le_min hg.1 hb.1)) ?ordered (max_le hr.2 (max_le hg.2 hb.2))⟩
  case lightness =>
    push_cast
    ring
  case ordered => exact (min_le_left _ _).trans (le_max_left _ _)

/-- The saturation of HSV: the only guard is `V = 0`. -/
theorem hsvSaturation_eq_quantise {mx : Int} (mn : Int) (h0 : 0 ≤ mx) :
    (if mx = 0 then 0#8 else quantDiv (255 * (mx - mn)) mx) =
      quantise ((if (mx : ℚ) / 255 = 0 then 0 else ((mx : ℚ) / 255 - mn / 255) / (mx / 255)) * 255) := by
  have hblack : (mx : ℚ) / 255 = 0 ↔ mx = 0 := by simp
  simp only [hblack]
  split_ifs with hmx
  · rw [zero_mul, quantise_zero]
  · refine quantDiv_eq_quantise (by omega) ?_
    have hne : (mx : ℚ) ≠ 0 := by exact_mod_cast hmx
    push_cast
    field_simp

theorem rgb2hsvColour_eq_formula (c : Colour) : rgb2hsvColour c = rgb2hsvFormula c := by
  have hr := chan_bounds c.c1
  simp only [rgb2hsvColour, rgb2hsvFormula, max_norm_eq, min_norm_eq, Colour.mk.injEq]
  refine ⟨hueByte_eq_quantise _ _ _, hsvSaturation_eq_quantise _ ?nonneg, ?value⟩
  case nonneg =>
    unfold max3
    omega
  case value => rw [div_mul_cancel₀ _ (by norm_num), quantise, trunc_intCast]

/-- Settles O20: hue, lightness and saturation are each the rule's, and the step is every pixel step. -/
theorem rgb2hlsStoresItsFormula : Obligations.Rgb2hlsStoresItsFormula :=
  ⟨rfl, rgb2hlsColour_eq_formula, fun _ => exec_formulaResult rgb2hlsColour_eq_formula rfl⟩

/-- Settles O22: the same of hue, saturation and value. -/
theorem rgb2hsvStoresItsFormula : Obligations.Rgb2hsvStoresItsFormula :=
  ⟨rfl, rgb2hsvColour_eq_formula, fun _ => exec_formulaResult rgb2hsvColour_eq_formula rfl⟩

/-- Settles O58: both encodings store the one `hueByte` of the colour. -/
theorem storedHueIsBelow255 : Obligations.StoredHueIsBelow255 :=
  fun _ => ⟨hueByte_toNat_le _ _ _, rfl⟩

end Sys2Proof.Machine

/-! PROOF. The decoder of HLS (R149, R150; O21): the helper's four cases are cut at the same places over the integers,
because no multiple of 1/765 lies strictly between 127/765 and 1/6, nor at the other two cuts. -/

namespace Sys2Proof.Machine

/-- The scaling of R150 is the quantiser on `256 * v`: a negative integer is stored as 0 in either form. -/
theorem scale256_eq_quantise (v : ℚ) : scale256 v = quantise (256 * v) := by
  have hclamp : (clamp 0 255 (trunc (256 * v))).toNat = (min 255 (trunc (256 * v))).toNat := by
    rw [clamp_eq_max_min (by decide)]
    omega
  rw [scale256, quantise, clampByte, hclamp]

theorem quantDiv_eq_scale256 {v : ℚ} {a b : Int} (hb : 0 < b) (h : (a : ℚ) / b = 256 * v) :
    quantDiv a b = scale256 v := by
  rw [scale256_eq_quantise, quantDiv_eq_quantise hb h]

/-- The wrap of `t` into [0, 1) in the helper of R149. -/
def wrapUnit (t : ℚ) : ℚ :=
  let u := if t < 0 then t + 1 else t
  if 1 ≤ u then u - 1 else u

theorem hue2ch_eq (p q t : ℚ) :
    hue2ch p q t =
      if wrapUnit t < 1 / 6 then p + (q - p) * 6 * wrapUnit t
      else if wrapUnit t < 1 / 2 then q
      else if wrapUnit t < 2 / 3 then p + (q - p) * (2 / 3 - wrapUnit t) * 6
      else p := rfl

theorem wrapUnit_div (tn : Int) : wrapUnit ((tn : ℚ) / 765) = (wrapTurn tn : ℚ) / 765 := by
  have hneg : (tn : ℚ) / 765 < 0 ↔ tn < 0 := by
    rw [div_lt_iff₀ (by norm_num), zero_mul, Int.cast_lt_zero]
  have hfirst : (if (tn : ℚ) / 765 < 0 then (tn : ℚ) / 765 + 1 else (tn : ℚ) / 765) =
      ((if tn < 0 then tn + 765 else tn : Int) : ℚ) / 765 := by
    simp only [hneg]
    split_ifs <;> push_cast <;> ring
  have hone (u : Int) : 1 ≤ (u : ℚ) / 765 ↔ 765 ≤ u := by
    rw [one_le_div (by norm_num)]
    norm_cast
  simp only [wrapUnit, hfirst, hone, wrapTurn]
  generalize (if tn < 0 then tn + 765 else tn) = u
  split_ifs <;> push_cast <;> ring

/-- A test `u / m < c` is a test on the integer `u` where `m * c` lies above `n` and not above `n + 1`. -/
theorem div_lt_cut_iff {m c : ℚ} {n : Int} (hm : 0 < m) (hlo : (n : ℚ) < m * c) (hhi : m * c ≤ n + 1) (u : Int) :
    (u : ℚ) / m < c ↔ u ≤ n := by
  rw [div_lt_iff₀' hm]
  constructor
  · intro h
    have hlt : (u : ℚ) < ((n + 1 : Int) : ℚ) := by
      push_cast
      exact h.trans_le hhi
    exact Int.lt_add_one_iff.mp (by exact_mod_cast hlt)
  · intro h
    have hle : (u : ℚ) ≤ n := by exact_mod_cast h
    exact hle.trans_lt hlo

/-- One channel of R150 is the helper of R149 scaled by 256. -/
theorem hlsChannel_eq_scale256 {pn qn tn : Int} {p q t : ℚ} (hp : (pn : ℚ) / 65025 = p) (hq : (qn : ℚ) / 65025 = q)
    (ht : (tn : ℚ) / 765 = t) : hlsChannel pn qn tn = scale256 (hue2ch p q t) := by
  subst hp hq ht
  have hsixth := div_lt_cut_iff (m := 765) (c := 1 / 6) (n := 127) (by norm_num) (by norm_num) (by norm_num)
  have hhalf := div_lt_cut_iff (m := 765) (c := 1 / 2) (n := 382) (by norm_num) (by norm_num) (by norm_num)
  have htwoThirds := div_lt_cut_iff (m := 765) (c := 2 / 3) (n := 509) (by norm_num) (by norm_num) (by norm_num)
  simp only [hue2ch_eq, wrapUnit_div, hsixth, hhalf, htwoThirds, hlsChannel]
  split_ifs <;> exact quantDiv_eq_scale256 (by decide) (by push_cast; ring)

theorem norm_eq_zero_iff (b : Byte) : norm b = 0 ↔ chan b = 0 := by
  rw [norm, chanQ, div_eq_zero_iff, Int.cast_eq_zero, or_iff_left (by norm_num)]

theorem norm_lt_half_iff (b : Byte) : norm b < 1 / 2 ↔ chan b ≤ 127 :=
  div_lt_cut_iff (by norm_num) (by norm_num) (by norm_num) (chan b)

theorem hlsQ_cast (x y : Byte) :
    (hlsQ (chan x) (chan y) : ℚ) / 65025 =
      if norm x < 1 / 2 then norm x * (1 + norm y) else norm x + norm y - norm x * norm y := by
  simp only [norm_lt_half_iff, hlsQ]
  unfold norm chanQ
  split_ifs <;> push_cast <;> ring

theorem hls2rgbColour_eq_formula (c : Colour) : hls2rgbColour c = hls2rgbFormula c := by
  simp only [hls2rgbColour, hls2rgbFormula, norm_eq_zero_iff, ← hlsQ_cast]
  unfold norm chanQ
  split_ifs with hs <;> rw [Colour.mk.injEq]
  case pos =>
    have hgray : quantDiv (256 * chan c.c2) 255 = scale256 (chan c.c2 / 255) :=
      quantDiv_eq_scale256 (by decide) (by push_cast; ring)
    exact ⟨hgray, hgray, hgray⟩
  case neg =>
    refine ⟨?r, ?g, ?b⟩ <;>
      exact hlsChannel_eq_scale256 (by push_cast; ring) rfl (by push_cast; ring)

/-- Settles O21: the three channels are the helper at thirds of a turn, and the step is every pixel step. -/
theorem hls2rgbStoresItsFormula : Obligations.Hls2rgbStoresItsFormula :=
  ⟨rfl, hls2rgbColour_eq_formula, fun _ => exec_formulaResult hls2rgbColour_eq_formula rfl⟩

end Sys2Proof.Machine

/-! PROOF. The decoder of HSV (R152; O23): over 255 the sixths of the hue are the integer division's quotient and
remainder. -/

namespace Sys2Proof.Machine

/-- The sector table selected by the index itself. -/
theorem sectorRow_sectorOfIndex (i : Nat) (v p q t : Byte) :
    sectorRow (sectorOfIndex i) v p q t =
      if (i : Int) = 0 then ⟨v, t, p⟩ else if (i : Int) = 1 then ⟨q, v, p⟩ else if (i : Int) = 2 then ⟨p, v, t⟩
      else if (i : Int) = 3 then ⟨p, q, v⟩ else if (i : Int) = 4 then ⟨t, p, v⟩ else ⟨v, p, q⟩ := by
  match i with
  | 0 | 1 | 2 | 3 | 4 => rfl
  | n + 5 =>
    rw [if_neg (by omega), if_neg (by omega), if_neg (by omega), if_neg (by omega), if_neg (by omega)]
    rfl

/-- The hue byte that R152 decodes: 255 stands for 360 degrees and so for 0. -/
def hueSteps (c : Byte) : Nat := if c.toNat = 255 then 0 else c.toNat

theorem hueSteps_cast (c : Byte) :
    (if chanQ c * 360 / 255 = 360 then 0 else chanQ c * 360 / 255) / 60 = (6 * hueSteps c : Nat) / (255 : ℚ) := by
  have hfull : chanQ c * 360 / 255 = 360 ↔ c.toNat = 255 := by
    rw [chanQ, chan, div_eq_iff (by norm_num), Int.cast_natCast, ← Nat.cast_inj (R := ℚ)]
    push_cast
    constructor <;> intro h <;> linarith
  simp only [hfull, hueSteps]
  split_ifs
  · norm_num
  · rw [chanQ, chan]
    push_cast
    ring

theorem floor_div_255 (n : Nat) : ⌊(n : ℚ) / 255⌋ = ((n / 255 : Nat) : Int) := by
  exact Rat.floor_intCast_div_natCast n 255

theorem fract_div_255 (n : Nat) :
    (n : ℚ) / 255 - ((n / 255 : Nat) : Int) = ((n - 255 * (n / 255) : Nat) : Int) / 255 := by
  have h : 255 * (n / 255) ≤ n := Nat.mul_div_le n 255
  push_cast [Nat.cast_sub h]
  ring

theorem clampByte_chan (b : Byte) : clampByte (chan b) = b := by
  have hb := chan_bounds b
  have hbyte : ((clampByte (chan b)).toNat : Int) = chan b := by
    rw [clampByte_toNat, clamp_eq_max_min (by decide)]
    omega
  exact BitVec.eq_of_toNat_eq (Int.ofNat_inj.mp hbyte)

theorem quantise_norm (b : Byte) : quantise (255 * norm b) = b := by
  rw [norm, chanQ, mul_div_cancel₀ _ (by norm_num), quantise, trunc_intCast, clampByte_chan]

theorem hsvP_eq_quantise (s v : Byte) :
    quantDiv (chan v * (255 - chan s)) 255 = quantise (255 * (norm v * (1 - norm s))) := by
  refine quantDiv_eq_quantise (by decide) ?_
  unfold norm chanQ
  push_cast
  ring

theorem hsvQ_eq_quantise (s v : Byte) (f : Int) :
    quantDiv (chan v * (65025 - chan s * f)) 65025 = quantise (255 * (norm v * (1 - norm s * (f / 255)))) := by
  refine quantDiv_eq_quantise (by decide) ?_
  unfold norm chanQ
  push_cast
  ring

theorem hsvT_eq_quantise (s v : Byte) (f : Int) :
    quantDiv (chan v * (65025 - chan s * (255 - f))) 65025 =
      quantise (255 * (norm v * (1 - norm s * (1 - f / 255)))) := by
  rw [hsvQ_eq_quantise, Int.cast_sub, sub_div]
  norm_num

theorem hsv2rgbColour_eq_formula (c : Colour) : hsv2rgbColour c = hsv2rgbFormula c := by
  rw [hsv2rgbColour, ← hueSteps]
  simp only [hsv2rgbFormula, hueSteps_cast, floor_div_255, fract_div_255, sectorRow_sectorOfIndex, quantise_norm]
  rw [hsvT_eq_quantise, hsvP_eq_quantise, hsvQ_eq_quantise]

/-- Settles O23: the row of the sector's index with the quantised p, q and t, and the step is every pixel step. -/
theorem hsv2rgbStoresItsFormula : Obligations.Hsv2rgbStoresItsFormula :=
  ⟨rfl, hsv2rgbColour_eq_formula, fun _ => exec_formulaResult hsv2rgbColour_eq_formula rfl⟩

end Sys2Proof.Machine

/-! PROOF. The corner cases of the decoders, and the grays (R153, R157, R158; O56, O57). -/

namespace Sys2Proof.Machine

/-! ### Quotients that are exact -/

theorem quantDiv_zero (b : Int) : quantDiv 0 b = 0#8 := by
  rw [quantDiv, Int.zero_tdiv]
  rfl

theorem quantDiv_mul_chan {k : Int} (hk : 0 < k) (v : Byte) : quantDiv (k * chan v) k = v := by
  rw [quantDiv, Int.mul_tdiv_cancel_left _ hk.ne', clampByte_chan]

theorem quantDiv_mul_mul {k : Int} (hk : 0 < k) (a b : Int) : quantDiv (k * a) (k * b) = quantDiv a b := by
  rw [quantDiv, Int.mul_tdiv_mul_of_pos _ _ hk, quantDiv]

/-- The scaling by 256 gives every byte back: it adds less than 1, but to 255, where the limit removes the 1. -/
theorem quantDiv_256_chan (v : Byte) : quantDiv (256 * chan v) 255 = v := by
  have hv := v.isLt
  have hbyte := quantDiv_of_nonneg (a := 256 * chan v) (b := 255) (by unfold chan; omega) (by decide)
  apply BitVec.eq_of_toNat_eq
  unfold chan at hbyte ⊢
  omega

/-! ### The decoder of HLS (R157) -/

theorem hls2rgbColour_s0 (h l : Byte) : hls2rgbColour ⟨h, l, 0#8⟩ = ⟨l, l, l⟩ := by
  have hs : chan 0#8 = 0 := rfl
  simp only [hls2rgbColour, hs, if_true, quantDiv_256_chan]

/-- Where `p = q` the helper returns it, whatever the hue. -/
theorem hlsChannel_of_eq (n tn : Int) : hlsChannel n n tn = quantDiv (256 * n) 65025 := by
  have hramp : quantDiv (256 * (765 * n)) 49744125 = quantDiv (256 * n) 65025 := by
    rw [mul_left_comm]
    exact quantDiv_mul_mul (k := 765) (by decide) _ 65025
  simp only [hlsChannel, sub_self, mul_zero, add_zero, hramp, ite_self]

/-- At a lightness where `q = l` the decoder stores the lightness in all three channels. -/
theorem hls2rgbColour_of_hlsQ {l s : Byte} (h : Byte) (hq : hlsQ (chan l) (chan s) = 255 * chan l) :
    hls2rgbColour ⟨h, l, s⟩ = ⟨l, l, l⟩ := by
  have hp : 510 * chan l - 255 * chan l = 255 * chan l := by ring
  have hscale : quantDiv (256 * (255 * chan l)) 65025 = quantDiv (256 * chan l) 255 := by
    rw [mul_left_comm]
    exact quantDiv_mul_mul (k := 255) (by decide) _ 255
  simp only [hls2rgbColour, hq, hp, hlsChannel_of_eq, hscale, quantDiv_256_chan, ite_self]

theorem hls2rgbColour_black (h s : Byte) : hls2rgbColour ⟨h, 0#8, s⟩ = ⟨0#8, 0#8, 0#8⟩ :=
  hls2rgbColour_of_hlsQ h (zero_mul (255 + chan s))

theorem hls2rgbColour_white (h s : Byte) : hls2rgbColour ⟨h, 255#8, s⟩ = ⟨255#8, 255#8, 255#8⟩ :=
  hls2rgbColour_of_hlsQ h (add_sub_cancel_right (255 * 255 : Int) (255 * chan s))

/-! ### The decoder of HSV (R157) -/

theorem sectorRow_const (i : Sector) (v : Byte) : sectorRow i v v v v = ⟨v, v, v⟩ := by
  cases i <;> rfl

/-- Without saturation p, q and t are all the value. -/
theorem hsv2rgbColour_s0 (h v : Byte) : hsv2rgbColour ⟨h, 0#8, v⟩ = ⟨v, v, v⟩ := by
  have hs : chan 0#8 = 0 := rfl
  have hp : quantDiv (chan v * 255) 255 = v := mul_comm (chan v) 255 ▸ quantDiv_mul_chan (by decide) v
  have hq : quantDiv (chan v * 65025) 65025 = v := mul_comm (chan v) 65025 ▸ quantDiv_mul_chan (by decide) v
  simp only [hsv2rgbColour, hs, sub_zero, zero_mul, hp, hq, sectorRow_const]

theorem hsv2rgbColour_black (h s : Byte) : hsv2rgbColour ⟨h, s, 0#8⟩ = ⟨0#8, 0#8, 0#8⟩ := by
  have hv : chan 0#8 = 0 := rfl
  simp only [hsv2rgbColour, hv, zero_mul, quantDiv_zero, sectorRow_const]

/-- The least hue byte of each sector is the least `c` with `255 * I <= 6 * c`. -/
theorem sectorOfIndex_hue {c : Nat} (hc : c ≤ 254) :
    sectorOfIndex (6 * c / 255) =
      if c ≤ 42 then .s0 else if c ≤ 84 then .s1 else if c ≤ 127 then .s2 else if c ≤ 169 then .s3
      else if c ≤ 212 then .s4 else .s5 := by
  have sector {n : Nat} (h : 6 * c / 255 = n) : sectorOfIndex (6 * c / 255) = sectorOfIndex n := congrArg _ h
  split_ifs
  · exact sector (n := 0) (by omega)
  · exact sector (n := 1) (by omega)
  · exact sector (n := 2) (by omega)
  · exact sector (n := 3) (by omega)
  · exact sector (n := 4) (by omega)
  · exact sector (n := 5) (by omega)

/-- Settles O56: S = 0, the ends of L and V = 0 collapse the decoders to a gray; the sectors and the fraction are the
quotient and the remainder by 255. -/
theorem hueDecoderCornerCases : Obligations.HueDecoderCornerCases :=
  ⟨hls2rgbColour_s0, hls2rgbColour_black, hls2rgbColour_white, hsv2rgbColour_s0, hsv2rgbColour_black, fun _ _ => rfl,
    fun _ => sectorOfIndex_hue, fun _ _ => by omega, by decide⟩

/-! ### The grays (R153, R158) -/

theorem max3_self (a : Int) : max3 a a a = a := by rw [max3, max_self, max_self]

theorem min3_self (a : Int) : min3 a a a = a := by rw [min3, min_self, min_self]

theorem hueByte_gray (a : Int) : hueByte a a a = 0#8 :=
  hueByte_of_achromatic (by rw [chroma, max3_self, min3_self, sub_self])

theorem rgb2hlsColour_gray (v : Byte) : rgb2hlsColour ⟨v, v, v⟩ = ⟨0#8, v, 0#8⟩ := by
  simp only [rgb2hlsColour, hueByte_gray, max3_self, min3_self, ← two_mul, quantDiv_mul_chan two_pos, hlsSaturation,
    sub_self, if_true]

theorem rgb2hsvColour_gray (v : Byte) : rgb2hsvColour ⟨v, v, v⟩ = ⟨0#8, 0#8, v⟩ := by
  simp only [rgb2hsvColour, hueByte_gray, max3_self, min3_self, sub_self, mul_zero, quantDiv_zero, ite_self,
    clampByte_chan]

/-- Settles O57: a gray is stored without saturation, and there each decoder stores a gray. -/
theorem graysSurviveHlsAndHsv : Obligations.GraysSurviveHlsAndHsv := fun v =>
  ⟨rgb2hlsColour_gray v, rgb2hsvColour_gray v, rgb2hlsColour_gray v ▸ hls2rgbColour_s0 0#8 v,
    rgb2hsvColour_gray v ▸ hsv2rgbColour_s0 0#8 v⟩

end Sys2Proof.Machine

/-! PROOF. RGB to and from YCoCg (R170 to R173; O24, O25, O59): the forward form is the formula as it stands, the
inverse has no fraction to truncate, and a gray's rounding constants stay below the divisors. -/

namespace Sys2Proof.Machine

/-! ### The formulas and their pixel steps (R170, R171) -/

theorem rgb2ycocgColour_eq_formula (c : Colour) : rgb2ycocgColour c = rgb2ycocgFormula c := by
  simp only [rgb2ycocgColour, rgb2ycocgFormula, chanQ, Colour.mk.injEq]
  refine ⟨?y, ?co, ?cg⟩ <;> exact quantDiv_eq_quantise (by decide) (by push_cast; rfl)

/-- On an integer the quantiser is its clamp (R171). -/
theorem clampByte_eq_quantise {q : ℚ} {n : Int} (h : (n : ℚ) = q) : clampByte n = quantise q := by
  rw [← h, quantise, trunc_intCast]

theorem ycocg2rgbColour_eq_formula (c : Colour) : ycocg2rgbColour c = ycocg2rgbFormula c := by
  simp only [ycocg2rgbColour, ycocg2rgbFormula, chanQ, Colour.mk.injEq]
  refine ⟨?r, ?g, ?b⟩ <;> exact clampByte_eq_quantise (by push_cast; rfl)

/-- Settles O24: the clamp of the quantiser stores a negative Co or Cg as 0, and the step is every pixel step. -/
theorem rgb2ycocgStoresItsFormula : Obligations.Rgb2ycocgStoresItsFormula :=
  ⟨rfl, rgb2ycocgColour_eq_formula, fun _ => exec_formulaResult rgb2ycocgColour_eq_formula rfl⟩

/-- Settles O25: the sums of the stored bytes are integers, so only the clamp is left of the quantiser. -/
theorem ycocg2rgbStoresItsFormula : Obligations.Ycocg2rgbStoresItsFormula :=
  ⟨rfl, ycocg2rgbColour_eq_formula, fun _ => exec_formulaResult ycocg2rgbColour_eq_formula rfl⟩

/-! ### The pair on red and on the grays (R172, R173) -/

/-- A rounding constant below the divisor is truncated away from an exact multiple. -/
theorem quantDiv_mul_chan_add {k r : Int} (hr : 0 ≤ r) (hrk : r < k) (v : Byte) : quantDiv (k * chan v + r) k = v := by
  have hk : 0 < k := hr.trans_lt hrk
  have hnonneg : 0 ≤ k * chan v + r := add_nonneg (mul_nonneg hk.le (chan_bounds v).1) hr
  rw [quantDiv, Int.tdiv_eq_ediv_of_nonneg hnonneg, Int.mul_add_ediv_left _ _ hk.ne', Int.ediv_eq_zero_of_lt hr hrk,
    add_zero, clampByte_chan]

/-- The differences of a gray cancel, and its luma is the gray and a half. -/
theorem rgb2ycocgColour_gray (v : Byte) : rgb2ycocgColour ⟨v, v, v⟩ = ⟨v, 0#8, 0#8⟩ := by
  have hy : chan v + 2 * chan v + chan v + 2 = 4 * chan v + 2 := by ring
  have hco : chan v - chan v + 1 = 1 := by ring
  have hcg : -chan v + 2 * chan v - chan v + 2 = 2 := by ring
  simp only [rgb2ycocgColour, hy, hco, hcg, quantDiv_mul_chan_add (k := 4) (r := 2) (by decide) (by decide)]
  rfl

theorem ycocg2rgbColour_gray (v : Byte) : ycocg2rgbColour ⟨v, 0#8, 0#8⟩ = ⟨v, v, v⟩ := by
  have h0 : chan 0#8 = 0 := rfl
  simp only [ycocg2rgbColour, h0, add_zero, sub_zero, clampByte_chan]

/-- Settles O59: red loses its negative Cg, which the inverse needs; a gray is stored as its luma alone. -/
theorem ycocgPairIsNotAnIdentity : Obligations.YcocgPairIsNotAnIdentity :=
  ⟨by decide, by decide, fun v => rgb2ycocgColour_gray v ▸ ycocg2rgbColour_gray v⟩

end Sys2Proof.Machine

/-! PROOF. The gamma table is the BT.709-style curve (R180 to R184; O26, O27, O60): where the scaled curve reaches a
level is a comparison of integers; an entry is the level that its index reaches while the next one is not reached. -/

namespace Sys2Proof.Machine

/-! ### Where the scaled curve reaches a level (R181) -/

/-- 255 times the curve of R181 at `c / 255` is at least `k`, in integers: the linear branch ends between 4 and 5, and
the power branch is compared by 20th powers. -/
def bt709Reached (k c : Nat) : Bool :=
  if c ≤ 4 then decide (2 * k ≤ 9 * c)
  else decide ((200 * k + 5049) ^ 20 * 255 ^ 9 ≤ 56049 ^ 20 * c ^ 9)

theorem bt709Reached_linear {c : Nat} (h : c ≤ 4) (k : Nat) : bt709Reached k c = true ↔ 2 * k ≤ 9 * c := by
  rw [bt709Reached, if_pos h, decide_eq_true_iff]

theorem bt709Reached_power {c : Nat} (h : 4 < c) (k : Nat) :
    bt709Reached k c = true ↔ (200 * k + 5049) ^ 20 * 255 ^ 9 ≤ 56049 ^ 20 * c ^ 9 := by
  rw [bt709Reached, if_neg h.not_ge, decide_eq_true_iff]

/-- The integer comparison is the comparison with the real curve. -/
theorem le_bt709Curve_iff {c : Nat} {y : ℝ} (h : IsBt709Curve ((c : ℝ) / 255) y) (k : Nat) :
    (k : ℝ) ≤ 255 * y ↔ bt709Reached k c = true := by
  obtain ⟨hlinear, hpower⟩ := h
  rcases le_or_gt c 4 with hc | hc
  · have hcR : (c : ℝ) ≤ 4 := by exact_mod_cast hc
    have hy := hlinear (by linarith)
    calc (k : ℝ) ≤ 255 * y ↔ 2 * (k : ℝ) ≤ 9 * c := by
          rw [hy]; constructor <;> intro hle <;> linarith
      _ ↔ bt709Reached k c = true := by rw [bt709Reached_linear hc]; exact_mod_cast Iff.rfl
  · have hcR : (5 : ℝ) ≤ c := by exact_mod_cast hc
    have hy := hpower (by linarith)
    calc (k : ℝ) ≤ 255 * y
        ↔ (200 * (k : ℝ) + 5049) / 56049 ≤ ((c : ℝ) / 255) ^ (((9 : ℕ) : ℝ) / ((20 : ℕ) : ℝ)) := by
          rw [hy]; push_cast; constructor <;> intro hle <;> linarith
      _ ↔ ((200 * (k : ℝ) + 5049) / 56049) ^ 20 ≤ ((c : ℝ) / 255) ^ 9 :=
          le_rpow_div_iff (by positivity) (by positivity) 9 (by decide)
      _ ↔ (200 * (k : ℝ) + 5049) ^ 20 * 255 ^ 9 ≤ 56049 ^ 20 * (c : ℝ) ^ 9 := by
          rw [div_pow, div_pow, div_le_div_iff₀ (by positivity) (by positivity), mul_comm ((c : ℝ) ^ 9)]
      _ ↔ bt709Reached k c = true := by rw [bt709Reached_power hc]; exact_mod_cast Iff.rfl

/-- The curve does not fall, across the end of the linear branch included: that branch reaches no level above 18, and
the power branch begins above level 18. -/
theorem bt709Reached_mono {k c d : Nat} (hcd : c ≤ d) (h : bt709Reached k c = true) : bt709Reached k d = true := by
  rcases le_or_gt d 4 with hd | hd
  · rw [bt709Reached_linear hd]
    rw [bt709Reached_linear (hcd.trans hd)] at h
    omega
  · rw [bt709Reached_power hd]
    rcases le_or_gt c 4 with hc | hc
    · rw [bt709Reached_linear hc] at h
      calc (200 * k + 5049) ^ 20 * 255 ^ 9 ≤ (200 * 18 + 5049) ^ 20 * 255 ^ 9 :=
            Nat.mul_le_mul_right _ (Nat.pow_le_pow_left (by omega) _)
        _ ≤ 56049 ^ 20 * 5 ^ 9 := by norm_num
        _ ≤ 56049 ^ 20 * d ^ 9 := Nat.mul_le_mul_left _ (Nat.pow_le_pow_left hd _)
    · rw [bt709Reached_power hc] at h
      exact h.trans (Nat.mul_le_mul_left _ (Nat.pow_le_pow_left hcd _))

/-- A level that is reached reaches every level below it. -/
theorem bt709Reached_anti {j k c : Nat} (hjk : j ≤ k) (h : bt709Reached k c = true) : bt709Reached j c = true := by
  rcases le_or_gt c 4 with hc | hc
  · rw [bt709Reached_linear hc] at h ⊢
    omega
  · rw [bt709Reached_power hc] at h ⊢
    exact (Nat.mul_le_mul_right _ (Nat.pow_le_pow_left (by omega) _)).trans h

/-! ### The entries of the table (R182) -/

/-- `v` is the highest level that index `c` reaches. -/
def isBt709Level (v c : Nat) : Bool := bt709Reached v c && !bt709Reached (v + 1) c

theorem isBt709Level_iff {v c : Nat} :
    isBt709Level v c = true ↔ bt709Reached v c = true ∧ ¬ bt709Reached (v + 1) c = true := by
  rw [isBt709Level, Bool.and_eq_true, Bool.not_eq_true', Bool.not_eq_true]

theorem floor_eq_of_isBt709Level {v c : Nat} {y : ℝ} (hv : isBt709Level v c = true)
    (hy : IsBt709Curve ((c : ℝ) / 255) y) : (v : Int) = ⌊255 * y⌋ := by
  obtain ⟨hreached, hnext⟩ := isBt709Level_iff.mp hv
  rw [← le_bt709Curve_iff hy] at hreached hnext
  push_cast at hnext
  exact (Int.floor_eq_iff.mpr ⟨hreached, not_le.mp hnext⟩).symm

theorem gammaLutPart0_length : gammaLutPart0.length = 64 := rfl

theorem gammaLutPart1_length : gammaLutPart1.length = 64 := rfl

theorem gammaLutPart2_length : gammaLutPart2.length = 64 := rfl

theorem gammaLutPart3_length : gammaLutPart3.length = 64 := rfl

theorem gammaLut_length : gammaLut.length = 256 := by
  simp only [gammaLut, List.length_append, gammaLutPart0_length, gammaLutPart1_length, gammaLutPart2_length,
    gammaLutPart3_length]

/-- A test of entry and index holds throughout the table if it holds in the four parts. -/
theorem gammaLut_all_of_parts {p : Nat × Nat → Bool} (h0 : (gammaLutPart0.zipIdx 0).all p = true)
    (h1 : (gammaLutPart1.zipIdx 64).all p = true) (h2 : (gammaLutPart2.zipIdx 128).all p = true)
    (h3 : (gammaLutPart3.zipIdx 192).all p = true) {c : Nat} (hc : c < 256) : p (gammaLut.getD c 0, c) = true := by
  have hall : gammaLut.zipIdx.all p = true := by
    simp only [gammaLut, List.zipIdx_append, List.all_append, List.length_append, gammaLutPart0_length,
      gammaLutPart1_length, gammaLutPart2_length, Nat.zero_add, Nat.reduceAdd, h0, h1, h2, h3, Bool.and_self]
  have hlen : c < gammaLut.length := gammaLut_length.symm ▸ hc
  refine List.all_eq_true.mp hall _ (List.mk_mem_zipIdx_iff_getElem?.mpr ?_)
  rw [List.getD_eq_getElem gammaLut 0 hlen, List.getElem?_eq_getElem hlen]

/-- Every entry is the highest level of its index. -/
theorem gammaLut_isBt709Level {c : Nat} (hc : c < 256) : isBt709Level (gammaLut.getD c 0) c = true :=
  gammaLut_all_of_parts (p := fun e => isBt709Level e.1 e.2) (by decide) (by decide) (by decide) (by decide) hc

/-- Settles O27: the curve lies at or above the level of the entry and below the next level. -/
theorem gammaTableIsTheCurve : Obligations.GammaTableIsTheCurve :=
  fun _ _ hc hy => floor_eq_of_isBt709Level (gammaLut_isBt709Level hc) hy

/-! ### The shape of the table (R183) -/

/-- The table does not fall, since the curve does not. -/
theorem gammaLut_mono {c d : Nat} (hcd : c ≤ d) (hd : d < 256) : gammaLut.getD c 0 ≤ gammaLut.getD d 0 := by
  obtain ⟨hreached, -⟩ := isBt709Level_iff.mp (gammaLut_isBt709Level (hcd.trans_lt hd))
  obtain ⟨-, hnext⟩ := isBt709Level_iff.mp (gammaLut_isBt709Level hd)
  by_contra hlt
  exact hnext (bt709Reached_anti (by omega) (bt709Reached_mono hcd hreached))

theorem lt_gammaLut {c : Nat} (hc : c < 256) : c < gammaLut.getD c 0 ∨ c = 0 ∨ 254 ≤ c :=
  of_decide_eq_true (gammaLut_all_of_parts (p := fun e => decide (e.2 < e.1 ∨ e.2 = 0 ∨ 254 ≤ e.2))
    (by decide) (by decide) (by decide) (by decide) hc)

/-- Settles O60: the order is the curve's, and the comparison with the identity is read off the entries. -/
theorem gammaTableShape : Obligations.GammaTableShape := by
  refine ⟨gammaLut_length, fun c => ⟨gammaLut_mono (Nat.le_succ _) (by omega), ?_⟩⟩
  have hlt := lt_gammaLut (c := c.val) (by omega)
  omega

/-! ### GAMMA's pixel step (R180) -/

theorem gammaLut_le {c : Nat} (hc : c < 256) : gammaLut.getD c 0 ≤ 255 :=
  gammaLut_mono (Nat.le_of_lt_succ hc) (by decide)

theorem gammaChannel_toNat (b : Byte) : (gammaChannel b).toNat = gammaLut.getD b.toNat 0 :=
  Nat.mod_eq_of_lt (Nat.lt_succ_of_le (gammaLut_le b.isLt))

theorem scaled_bt709Curve_nonneg {c : Nat} {y : ℝ} (h : IsBt709Curve ((c : ℝ) / 255) y) : 0 ≤ 255 * y := by
  have hzero : bt709Reached 0 c = true := bt709Reached_mono (Nat.zero_le c) (by decide)
  exact_mod_cast (le_bt709Curve_iff h 0).mpr hzero

/-- The byte GAMMA stores for a channel is the scaled curve of that channel, quantised. -/
theorem gammaChannel_isQuantised {b : Byte} {y : ℝ} (h : IsBt709Curve ((b.toNat : ℝ) / 255) y) :
    IsQuantised (255 * y) (gammaChannel b) := by
  have hle := gammaLut_le b.isLt
  rw [IsQuantised, if_pos (scaled_bt709Curve_nonneg h), ← gammaTableIsTheCurve _ y b.isLt h, gammaChannel_toNat]
  omega

/-- Settles O26: the pixel step is every pixel step, and each channel of its colour is the quantised curve of that
channel. -/
theorem gammaStoresTheCurveOfEachChannel : Obligations.GammaStoresTheCurveOfEachChannel := by
  refine ⟨rfl, fun s hr => ⟨_, exec_ready rfl hr, afterPixel_result gammaColour hr, ?c1, ?c2, ?c3⟩⟩ <;>
    exact fun _ hy => gammaChannel_isQuantised hy

end Sys2Proof.Machine

/-! PROOF. The host's commands and moves, each by its equation: START and CLR, the register write and read, the accesses
to the raster memories beside a run (R190 to R197; O32, O34 to O38). -/

namespace Sys2Proof.Machine

/-! ### START and CLR (R193, R194) -/

theorem execStart_busy {s : State} (hb : s.busy = true) : execStart s = .next s := by
  rw [execStart, if_pos hb]

theorem execClr_busy {s : State} (hb : s.busy = true) : execClr s = .next s := by
  rw [execClr, if_pos hb]

theorem execClr_idle {s : State} (hb : s.busy = false) : execClr s = .next s.clearReport := by
  rw [execClr, if_neg (Bool.eq_false_iff.mp hb)]

/-- The report, the scan position and the record of races may take any value. -/
theorem sameBesideReport_update (s : State) (status : BitVec 3) (errcode : BitVec 2) (scanx scany : Half)
    (rb : RaceBook) :
    SameBesideReport s
      { s with status := status, errcode := errcode, scanx := scanx, scany := scany, race := rb } :=
  ⟨rfl, rfl, rfl, rfl, rfl, rfl, rfl, rfl, rfl, rfl, rfl⟩

/-- Settles O32: both branches of START without an error. -/
theorem startBeginsARun : Obligations.StartBeginsARun :=
  ⟨fun _ hb => execStart_busy hb, fun s hb ho hsize =>
    ⟨_, execStart_accepted hb ho hsize, s.beginRun_status_idle hb, rfl, rfl, rfl, sameBesideReport_update ..⟩⟩

/-- Settles O34: both branches of CLR. -/
theorem clrClearsTheReport : Obligations.ClrClearsTheReport :=
  ⟨decode_ctrl_eq_clr_iff, rfl, fun _ hb => execClr_busy hb, fun s hb =>
    ⟨_, execClr_idle hb, s.clearReport_status_idle hb, rfl, rfl, rfl, rfl, sameBesideReport_update ..⟩⟩

/-! ### Register moves (R191, R192) -/

/-- A write at an index other than CTRL's is a register write. -/
theorem hostWriteReg_storage {idx : BitVec 3} (h : idx ≠ 0#3) (v : Word) (s : State) :
    hostWriteReg idx v s = .next (writeReg (decodeReg idx) v s) := by
  unfold hostWriteReg
  split
  · rename_i hctrl
    exact absurd (eq_zero_of_decodeReg_ctrl hctrl) h
  · rfl

/-- A register write while BUSY = 0: each of the three writable registers takes the low bits when it is the one named,
and nothing else changes (R191). -/
theorem writeReg_idle {s : State} (hb : s.busy = false) (r : CtrlReg) (v : Word) :
    writeReg r v s =
      { s with op := if r = .op then v.extractLsb' 0 4 else s.op
               width := if r = .width then v.extractLsb' 0 16 else s.width
               height := if r = .height then v.extractLsb' 0 16 else s.height } := by
  unfold writeReg
  rw [if_neg (Bool.eq_false_iff.mp hb)]
  cases r
  case op | width | height => simp [BitVec.setWidth_eq_extractLsb']
  all_goals rfl

theorem hostWriteReg_op {s : State} (hb : s.busy = false) (v : Word) :
    hostWriteReg 1#3 v s = .next { s with op := v.extractLsb' 0 4 } := by
  rw [hostWriteReg_storage (by decide), writeReg_idle hb]; rfl

theorem hostWriteReg_width {s : State} (hb : s.busy = false) (v : Word) :
    hostWriteReg 2#3 v s = .next { s with width := v.extractLsb' 0 16 } := by
  rw [hostWriteReg_storage (by decide), writeReg_idle hb]; rfl

theorem hostWriteReg_height {s : State} (hb : s.busy = false) (v : Word) :
    hostWriteReg 3#3 v s = .next { s with height := v.extractLsb' 0 16 } := by
  rw [hostWriteReg_storage (by decide), writeReg_idle hb]; rfl

/-- The indices 4 to 7 are no writable register (R24). -/
theorem decodeReg_readOnly {idx : BitVec 3} (h : 4 ≤ idx.toNat) :
    decodeReg idx ≠ .op ∧ decodeReg idx ≠ .width ∧ decodeReg idx ≠ .height := by
  revert idx
  decide

/-- A read-only register keeps its value. -/
theorem hostWriteReg_readOnly {s : State} {idx : BitVec 3} (hb : s.busy = false) (h : 4 ≤ idx.toNat) (v : Word) :
    hostWriteReg idx v s = .next s := by
  have hstorage : idx ≠ 0#3 := by
    rintro rfl
    exact absurd h (by decide)
  obtain ⟨hop, hwidth, hheight⟩ := decodeReg_readOnly h
  rw [hostWriteReg_storage hstorage, writeReg_idle hb, if_neg hop, if_neg hwidth, if_neg hheight]

/-- Settles O35: by the command bits at index 0, by the register at the others. -/
theorem registerWriteRule : Obligations.RegisterWriteRule := by
  intro s idx v
  rw [hostMove_writeReg]
  refine ⟨fun hb => ?busy, fun hb => ⟨?start, ?clr, ?noCommand, ?op, ?width, ?height,
    fun hro => hostWriteReg_readOnly hb hro v⟩⟩
  case busy =>
    obtain ⟨t, ht⟩ := hostWriteReg_completes idx v s
    rw [ht, hostWriteReg_busy hb ht]
  case start =>
    rintro rfl h0
    exact hostWriteReg_command ((decode_ctrl_eq_start_iff v).mpr h0) s
  case clr =>
    rintro rfl h0 h1
    exact hostWriteReg_command ((decode_ctrl_eq_clr_iff v).mpr ⟨h0, h1⟩) s
  case noCommand =>
    rintro rfl h0 h1
    exact hostWriteReg_noCommand ((decode_ctrl_eq_noCommand_iff v).mpr ⟨h0, h1⟩) s
  case op =>
    rintro rfl
    exact hostWriteReg_op hb v
  case width =>
    rintro rfl
    exact hostWriteReg_width hb v
  case height =>
    rintro rfl
    exact hostWriteReg_height hb v

theorem hostMove_readReg (idx : BitVec 3) (s : State) :
    hostMove (.readReg idx) s = .next (s.reply (readReg (decodeReg idx) s)) := rfl

/-- STATUS as a number is its three flags (R29). -/
theorem status_toNat (s : State) : s.status.toNat = s.busy.toNat + 2 * s.done.toNat + 4 * s.err.toNat := by
  rw [State.busy, State.done, State.err]
  generalize s.status = v
  revert v
  decide

/-- Settles O36: zero-extension keeps the number a register holds. -/
theorem registerReadRule : Obligations.RegisterReadRule := by
  intro s idx
  refine ⟨_, hostMove_readReg idx s, ?ctrl, ?op, ?width, ?height, ?status, ?errcode, ?scanx, ?scany⟩ <;> rintro rfl
  case ctrl => rfl
  case status => exact (BitVec.toNat_setWidth_of_le (by decide)).trans (status_toNat s)
  all_goals exact BitVec.toNat_setWidth_of_le (by decide)

/-! ### Accesses to the memories (R196, R197) -/

theorem step_writeMem {s : State} {sp : Space} {i : Nat} {w : Word} {rest : List Turn}
    (h : s.turns = .host (.writeMem sp i w) :: rest) (hi : i < s.config.memPixels) :
    step s = .next (hostWriteMem sp i w { s with turns := rest }) := by
  rw [step_host h]
  exact hostMove_writeMem (s := { s with turns := rest }) hi sp w

theorem step_readMem {s : State} {sp : Space} {i : Nat} {rest : List Turn}
    (h : s.turns = .host (.readMem sp i) :: rest) (hi : i < s.config.memPixels) :
    step s = .next (hostReadMem sp i { s with turns := rest }) := by
  rw [step_host h]
  exact hostMove_readMem (s := { s with turns := rest }) hi sp

/-- A turn with an index outside the memories is refused (R52, U4). -/
theorem step_illegal {s : State} {m : HostMove} {rest : List Turn} (h : s.turns = .host m :: rest)
    (hm : m.wf s.config.memPixels = false) : step s = .refused .hostIndexOutOfRange := by
  rw [step_host h]
  exact hostMove_illegal (s := { s with turns := rest }) hm

theorem writeMem_illegal {n i : Nat} (h : n ≤ i) (sp : Space) (w : Word) : (HostMove.writeMem sp i w).wf n = false :=
  decide_eq_false (Nat.not_lt.mpr h)

theorem readMem_illegal {n i : Nat} (h : n ≤ i) (sp : Space) : (HostMove.readMem sp i).wf n = false :=
  decide_eq_false (Nat.not_lt.mpr h)

/-- A read of a written word returns it and draws nothing (U1). -/
theorem replyFrom_written {m : Mem} {i : Nat} (h : memWritten m i = true) (n : Nat) (s : State) :
    s.replyFrom m i = { s with replies := memWord m i n :: s.replies } := by
  rw [State.replyFrom, memDraws_written h, memWord_written h s.draws n]

/-- Outside a run the host reads what OMEM holds. -/
theorem hostReadOmem_outside {i : Nat} {s : State} (hr : s.inRun i = false) :
    hostReadOmem i s = s.replyFrom s.omem i := by
  rw [hostReadOmem, if_neg (Bool.eq_false_iff.mp hr)]

/-- No pixel step is to come for a word outside the run. -/
theorem not_ahead_of_not_inRun {i : Nat} {s : State} (hr : s.inRun i = false) : s.ahead i = false := by
  rw [State.ahead, hr, Bool.false_and]

/-- Outside a run the host's word replaces OMEM's. -/
theorem hostWriteOmem_outside {i : Nat} {s : State} (hr : s.inRun i = false) (w : Word) :
    hostWriteOmem i w s = { s with omem := memWriteWord s.omem i w } := by
  rw [hostWriteOmem, if_neg (Bool.eq_false_iff.mp (not_ahead_of_not_inRun hr)), if_neg (Bool.eq_false_iff.mp hr)]

/-- Settles O37: a write changes one word of IMEM beside the record of races and the draws, a read the replies and the
draws. -/
theorem hostAccessToImem : Obligations.HostAccessToImem := by
  refine fun s i rest => ⟨fun w hturns hi => ?write, fun hturns hi hw n => ?readWritten, fun hturns hi => ?read,
    fun w hturns hi => step_illegal hturns (writeMem_illegal hi .imem w),
    fun hturns hi => step_illegal hturns (readMem_illegal hi .imem)⟩
  case write =>
    obtain ⟨st, d, hframe⟩ := hostWriteImem_frame i w { s with turns := rest }
    exact ⟨_, (step_writeMem hturns hi).trans (congrArg _ hframe), fun n => memWord_memWriteWord_same s.imem i n w,
      fun a ha => memByte_memWriteWord_notInWord ha, rfl, rfl, rfl, sameRegisters_update ..⟩
  case readWritten =>
    exact (step_readMem hturns hi).trans (congrArg _ (replyFrom_written hw n { s with turns := rest }))
  case read =>
    exact ⟨_, s.draws, step_readMem hturns hi, rfl, rfl, rfl, rfl, rfl, sameRegisters_update ..⟩

/-- Settles O38: outside the run in progress both accesses are those to a memory at rest. -/
theorem hostAccessToOmem : Obligations.HostAccessToOmem := by
  intro s i rest hr
  have hread : hostReadMem .omem i { s with turns := rest } = { s with turns := rest }.replyFrom s.omem i :=
    hostReadOmem_outside (s := { s with turns := rest }) hr
  refine ⟨fun w hturns hi => ?write, fun hturns hi hw n => ?readWritten, fun hturns hi => ?read,
    fun w hturns hi => step_illegal hturns (writeMem_illegal hi .omem w),
    fun hturns hi => step_illegal hturns (readMem_illegal hi .omem)⟩
  case write =>
    have hwrite := hostWriteOmem_outside (s := { s with turns := rest }) hr w
    exact ⟨_, (step_writeMem hturns hi).trans (congrArg _ hwrite), fun n => memWord_memWriteWord_same s.omem i n w,
      fun a ha => memByte_memWriteWord_notInWord ha, rfl, rfl, rfl, sameRegisters_update ..⟩
  case readWritten =>
    rw [step_readMem hturns hi, hread, replyFrom_written hw n]
  case read =>
    exact ⟨_, s.draws, (step_readMem hturns hi).trans (congrArg _ hread), rfl, rfl, rfl, rfl, rfl,
      sameRegisters_update ..⟩

end Sys2Proof.Machine

/-! PROOF. A whole run: the state of a run between its START and its finish step, the engine's steps from the origin to
the end of the raster, and the normal sequence FILL, SETUP, START (R199, R248; O50, O51). -/

namespace Sys2Proof.Machine

/-! ### Runs of the machine -/

theorem core_run_succ {M : Host.Core} {s t : M.State} (h : M.step s = .next t) (k : Nat) :
    M.run (k + 1) s = M.run k t := by
  rw [Host.Core.run, h]

theorem run_succ {s t : State} (h : step s = .next t) (k : Nat) :
    Host.Core.run Sys2Proof.core (k + 1) s = Host.Core.run Sys2Proof.core k t :=
  core_run_succ h k

theorem run_add {M : Host.Core} {m : Nat} {s t : M.State} (h : M.run m s = .next t) (n : Nat) :
    M.run (m + n) s = M.run n t := by
  induction m generalizing s with
  | zero =>
    cases h
    rw [Nat.zero_add]
  | succ m ih =>
    rw [Nat.add_right_comm, Host.Core.run]
    rw [Host.Core.run] at h
    cases hstep : M.step s with
    | next u => rw [hstep] at h; exact ih h
    | fault r => rw [hstep] at h; cases h
    | refused r => rw [hstep] at h; cases h

/-! ### The scan position during a run (R31, R88) -/

/-- The scan position is that of a pixel of the raster. -/
def State.scanInside (s : State) : Prop := s.scanx.toNat < s.width.toNat ∧ s.scany.toNat < s.height.toNat

/-- The scan position is where the finish step finds it: below the last row, or at the origin of empty rows. -/
def State.scanAtEnd (s : State) : Prop :=
  s.scanx = 0#16 ∧ s.scany = if s.width = 0#16 then 0#16 else s.height

theorem State.scanAtEnd.scanIndex_eq {s : State} (h : s.scanAtEnd) : s.scanIndex = s.rasterSize := by
  obtain ⟨hx, hy⟩ := h
  rw [State.scanIndex, State.rasterSize, hx, hy]
  split
  · rename_i hw; simp [hw]
  · simp [Nat.mul_comm]

theorem State.scanAtEnd.finishEnabled {s : State} (h : s.scanAtEnd) (hb : s.busy = true) :
    s.finishEnabled = true := by
  refine (finishEnabled_iff s).mpr ⟨hb, ?_⟩
  by_cases hw : s.width = 0#16
  · exact .inl hw
  · exact .inr (by rw [h.2, if_neg hw])

theorem State.scanInside.pixelEnabled {s : State} (h : s.scanInside) (hb : s.busy = true) :
    s.pixelEnabled = true :=
  (pixelEnabled_iff s).mpr ⟨hb, Nat.zero_lt_of_lt h.1, h.2⟩

/-- The origin is the first pixel of the raster, or its end when the raster is empty. -/
theorem scanInside_or_atEnd_of_origin {s : State} (hx : s.scanx = 0#16) (hy : s.scany = 0#16) :
    s.scanInside ∨ s.scanAtEnd := by
  rw [State.scanInside, State.scanAtEnd, hx, hy]
  by_cases hw : s.width = 0#16
  · exact .inr ⟨rfl, by rw [if_pos hw]⟩
  · by_cases hh : s.height = 0#16
    · exact .inr ⟨rfl, by rw [if_neg hw, hh]⟩
    · exact .inl (by constructor <;> bv_omega)

theorem afterPixel_scanInside_or_atEnd {s : State} (h : s.scanInside) (T : Colour → Colour) :
    (s.afterPixel T).scanInside ∨ (s.afterPixel T).scanAtEnd := by
  have hw : s.width ≠ 0#16 := fun hw => by
    have hx := h.1
    rw [hw] at hx
    exact Nat.not_lt_zero _ hx
  refine (afterPixel_scan h.1 h.2).imp_right fun ⟨hx, hy⟩ => ⟨hx, ?_⟩
  rw [hy, State.afterPixel_width, if_neg hw, State.afterPixel_height]

/-! ### A run between its START and its finish step -/

/-- `t` is a state of a run of the transform `f`, free of races, that a START began in `s`: OMEM follows the scan
position (R40 (d)), and everything else `RunResult` speaks of is as in `s`. -/
structure State.RunFrom (f : Word → Word) (s t : State) : Prop where
  follows : t.RunFollows f
  scan    : t.scanInside ∨ t.scanAtEnd
  outside : ∀ a, 4 * s.rasterSize ≤ a → memByte t.omem a = memByte s.omem a
  fits    : s.rasterSize ≤ s.config.memPixels
  status  : t.status = 1#3
  errcode : t.errcode = 0#2
  imem    : t.imem = s.imem
  op      : t.op = s.op
  width   : t.width = s.width
  height  : t.height = s.height
  config  : t.config = s.config

theorem State.RunFrom.busy {f : Word → Word} {s t : State} (h : s.RunFrom f t) : t.busy = true :=
  busy_of_status_eq_one h.status

theorem State.RunFrom.rasterSize_eq {f : Word → Word} {s t : State} (h : s.RunFrom f t) :
    t.rasterSize = s.rasterSize := by
  rw [State.rasterSize, State.rasterSize, h.width, h.height]

/-- A run's function is that of a transform, which OP selects (R95, R98). -/
theorem exists_transform_of_runFunction {s : State} {f : Word → Word} (h : runFunction s = some f) :
    ∃ i T, decode (.op4 s.op) = .instr i ∧ transformOf s.config i = some T ∧ f = pixelFunction T := by
  unfold runFunction at h
  split at h
  · rename_i i hi
    obtain ⟨T, hT, hf⟩ := Option.map_eq_some_iff.mp h
    exact ⟨i, T, hi, hT, hf.symm⟩
  · cases h

/-- Under the reserved code there is no transform to run (R75). -/
theorem op_ne_reserved_of_runFunction {s : State} {f : Word → Word} (h : runFunction s = some f) : s.op ≠ 15#4 := by
  intro ho
  obtain ⟨i, _, hi, _⟩ := exists_transform_of_runFunction h
  rw [ho] at hi
  cases hi

/-- A successful START begins the run (R193). -/
theorem runFrom_beginRun {f : Word → Word} {s : State} (hb : s.busy = false)
    (hsize : s.rasterSize ≤ s.config.memPixels) (hfilled : s.filled) (hcode : runFunction s = some f)
    (rest : List Turn) : s.RunFrom f { s with turns := rest }.clearReport.beginRun where
  follows := ⟨beginRun_behindScan f _, rfl, rfl, hcode, hfilled⟩
  scan := scanInside_or_atEnd_of_origin rfl rfl
  outside _ _ := rfl
  fits := hsize
  status := s.beginRun_status_idle hb
  errcode := rfl
  imem := rfl
  op := rfl
  width := rfl
  height := rfl
  config := rfl

/-- In the raster the engine's turn is the pixel step, which brings the run one word further (R86, R88). -/
theorem State.RunFrom.pixelStep {f : Word → Word} {s t : State} (h : s.RunFrom f t) (hin : t.scanInside) :
    ∃ u, engineTurn t = .next u ∧ s.RunFrom f u ∧ u.scanIndex = t.scanIndex + 1 ∧ u.turns = t.turns := by
  obtain ⟨i, T, hi, hT, rfl⟩ := exists_transform_of_runFunction h.follows.code
  have hx : t.scanx.toNat < t.width.toNat := hin.1
  have hy : t.scany.toNat < t.height.toNat := hin.2
  have hlt : t.scanIndex < s.rasterSize := h.rasterSize_eq ▸ scanIndex_lt_rasterSize hx hy
  have hp : t.pixelEnabled = true := hin.pixelEnabled h.busy
  have hready : t.pixelReady := ⟨hp, by rw [h.config]; exact Nat.lt_of_lt_of_le hlt h.fits⟩
  have hturn : engineTurn t = .next (t.afterPixel T) := (engineTurn_pixel hp hi).trans (exec_ready hT hready)
  refine ⟨t.afterPixel T, hturn, ?_, afterPixel_scanIndex hx hy, rfl⟩
  have hfollows : (t.afterPixel T).RunFollows (pixelFunction T) :=
    ⟨afterPixel_behindScan hx hy h.follows.stale h.follows.kept h.follows.filled h.follows.behind, h.follows.stale,
      h.follows.kept, h.follows.code, h.follows.filled⟩
  have houtside : ∀ a, 4 * s.rasterSize ≤ a → memByte (t.afterPixel T).omem a = memByte s.omem a := fun a ha => by
    have hother : ¬ inWord t.scanIndex a := by unfold inWord; omega
    rw [State.afterPixel_omem, storeOmem_other hother, h.outside a ha]
  exact ⟨hfollows, afterPixel_scanInside_or_atEnd hin T, houtside, h.fits, h.status, h.errcode, h.imem, h.op, h.width,
    h.height, h.config⟩

/-- At the end of the raster the engine's turn is the finish step, which leaves the run's result (R87). -/
theorem State.RunFrom.finishStep {f : Word → Word} {s t : State} (h : s.RunFrom f t) (hend : t.scanAtEnd) :
    engineTurn t = .next t.finishRun ∧ RunResult f s t.finishRun := by
  refine ⟨engineTurn_finish (hend.finishEnabled h.busy), ?_⟩
  obtain ⟨hpixels, _⟩ := h.follows.behind
  rw [hend.scanIndex_eq, h.rasterSize_eq, h.imem] at hpixels
  exact {
    status := t.finishRun_status_busy h.status
    errcode := h.errcode
    scanx := hend.1
    scany := by rw [State.finishRun_scany, hend.2, h.width, h.height]
    pixels := hpixels
    outside := h.outside
    imem := h.imem
    op := h.op
    width := h.width
    height := h.height
    config := h.config }

/-- With no turn listed the engine takes the rest of the raster and finishes, by induction on the pixels to come. -/
theorem State.RunFrom.run_to_end {f : Word → Word} {s t : State} {k : Nat} (h : s.RunFrom f t) (hturns : t.turns = [])
    (hk : t.scanIndex + k = s.rasterSize) :
    ∃ u, Host.Core.run Sys2Proof.core (k + 1) t = .next u ∧ RunResult f s u ∧ u.turns = [] := by
  induction k generalizing t with
  | zero =>
    rcases h.scan with hin | hend
    · have hlt := scanIndex_lt_rasterSize hin.1 hin.2
      rw [h.rasterSize_eq] at hlt
      omega
    · obtain ⟨hfinish, hresult⟩ := h.finishStep hend
      exact ⟨t.finishRun, run_succ ((step_noTurn hturns).trans hfinish) 0, hresult, hturns⟩
  | succ k ih =>
    rcases h.scan with hin | hend
    · obtain ⟨v, hstep, hv, hindex, hvturns⟩ := h.pixelStep hin
      obtain ⟨u, hrun, hresult⟩ := ih hv (hvturns.trans hturns) (by omega)
      exact ⟨u, (run_succ ((step_noTurn hturns).trans hstep) (k + 1)).trans hrun, hresult⟩
    · have hindex := hend.scanIndex_eq
      rw [h.rasterSize_eq] at hindex
      omega

/-! ### START (R193) -/

theorem step_writeReg {s : State} {idx : BitVec 3} {v : Word} {rest : List Turn}
    (h : s.turns = wrTurn idx v :: rest) : step s = hostWriteReg idx v { s with turns := rest } := by
  rw [step_host h, hostMove_writeReg]

/-- The write of START's canonical word that is accepted begins a run (R193). -/
theorem step_start {s : State} {rest : List Turn} (h : s.turns = startTurn :: rest) (hb : s.busy = false)
    (ho : s.op ≠ 15#4) (hsize : s.rasterSize ≤ s.config.memPixels) :
    step s = .next { s with turns := rest }.clearReport.beginRun := by
  have hdecode : decode (.ctrl 1#32) = .instr .start := rfl
  rw [step_writeReg h, hostWriteReg_command hdecode]
  exact execStart_accepted (s := { s with turns := rest }) hb ho hsize

/-- Settles O50: the START, and the engine's steps from the origin to the end. -/
theorem runTransformsTheWholeRaster : Obligations.RunTransformsTheWholeRaster := by
  intro s f hturns hb hsize hfilled hcode
  have hstart := step_start hturns hb (op_ne_reserved_of_runFunction hcode) hsize
  have horigin : ({ s with turns := [] } : State).clearReport.beginRun.scanIndex + s.rasterSize = s.rasterSize := by
    simp [State.scanIndex]
  obtain ⟨u, hend, hresult, hnoTurn⟩ := (runFrom_beginRun hb hsize hfilled hcode []).run_to_end rfl horigin
  exact ⟨u, (run_succ hstart _).trans hend, hresult, hnoTurn⟩

/-! ### FILL and SETUP (R78) -/

/-- The memory after the words `ps` have been written from index `i` on. -/
def fillMem : Nat → List Word → Mem → Mem
  | _, [], m => m
  | i, p :: rest, m => fillMem (i + 1) rest (memWriteWord m i p)

theorem memByte_fillMem_outside {i a : Nat} {ps : List Word} (h : a < 4 * i ∨ 4 * (i + ps.length) ≤ a) (m : Mem) :
    memByte (fillMem i ps m) a = memByte m a := by
  induction ps generalizing i m with
  | nil => rfl
  | cons p rest ih =>
    rw [List.length_cons] at h
    rw [fillMem, ih (by omega), memByte_memWriteWord_other (by omega)]

/-- After a FILL each word filled is in its place: the later words leave it. -/
theorem memByte_fillMem {i j k : Nat} {ps : List Word} (hj : j < ps.length) (hk : k < 4) (m : Mem) :
    memByte (fillMem i ps m) (byteAddr (i + j) k) = some (wordByte (ps.getD j 0#32) k) := by
  induction ps generalizing i j m with
  | nil => cases hj
  | cons p rest ih =>
    rw [fillMem]
    cases j with
    | zero =>
      rw [Nat.add_zero, memByte_fillMem_outside (.inl (by unfold byteAddr; omega))]
      exact memByte_memWriteWord_byteAddr m i p hk
    | succ j =>
      rw [← Nat.add_assoc, Nat.add_right_comm]
      exact ih (Nat.lt_of_succ_lt_succ hj) _

theorem memWord_fillMem {i j : Nat} {ps : List Word} (h : j < ps.length) (m : Mem) (n : Nat) :
    memWord (fillMem i ps m) (i + j) n = ps.getD j 0#32 := by
  have hbyte (k : Nat) (hk : k < 4) := memByte_fillMem (i := i) h hk m
  simp only [memWord, hbyte 0 (by omega), hbyte 1 (by omega), hbyte 2 (by omega), hbyte 3 (by omega),
    Option.getD_some, wordOfBytes_wordByte]

theorem memWritten_fillMem {i j : Nat} {ps : List Word} (h : j < ps.length) (m : Mem) :
    memWritten (fillMem i ps m) (i + j) = true := by
  have hbyte (k : Nat) (hk : k < 4) := memByte_fillMem (i := i) h hk m
  simp only [memWritten, hbyte 0 (by omega), hbyte 1 (by omega), hbyte 2 (by omega), hbyte 3 (by omega),
    Option.isSome_some, Bool.and_self]

/-- While BUSY = 0 a host write of IMEM races with nothing: it replaces the word. -/
theorem hostWriteImem_idle {s : State} (hb : s.busy = false) (i : Nat) (w : Word) :
    hostWriteImem i w s = { s with imem := memWriteWord s.imem i w } := by
  have hnotInRun : s.inRun i = false := by rw [State.inRun, hb, Bool.false_and]
  rw [hostWriteImem, State.markStale, if_neg (Bool.eq_false_iff.mp (not_ahead_of_not_inRun hnotInRun))]

theorem step_writeImem_idle {s : State} {i : Nat} {w : Word} {rest : List Turn} (hb : s.busy = false)
    (h : s.turns = .host (.writeMem .imem i w) :: rest) (hi : i < s.config.memPixels) :
    step s = .next { s with imem := memWriteWord s.imem i w, turns := rest } :=
  (step_writeMem h hi).trans (congrArg _ (hostWriteImem_idle (s := { s with turns := rest }) hb i w))

/-- FILL while BUSY = 0. -/
theorem run_fill {s : State} {i : Nat} {ps : List Word} {rest : List Turn} (hb : s.busy = false)
    (hturns : s.turns = fillFrom i ps ++ rest) (hfits : i + ps.length ≤ s.config.memPixels) :
    Host.Core.run Sys2Proof.core ps.length s = .next { s with imem := fillMem i ps s.imem, turns := rest } := by
  induction ps generalizing s i with
  | nil =>
    obtain rfl : s.turns = rest := hturns
    rfl
  | cons p ps ih =>
    rw [List.length_cons] at hfits
    have hstep := step_writeImem_idle hb hturns (by omega)
    have hnext : i + 1 + ps.length ≤ s.config.memPixels := by omega
    exact (run_succ hstep ps.length).trans (ih (by exact hb) rfl (by exact hnext))

/-- A value zero-extended to a register write's data has its bits in the low positions (R77). -/
theorem extractLsb'_setWidth_self {n : Nat} (hn : n ≤ 32) (x : BitVec n) : (x.setWidth 32).extractLsb' 0 n = x := by
  rw [← BitVec.setWidth_eq_extractLsb' hn, BitVec.setWidth_setWidth_of_le x hn, BitVec.setWidth_eq]

theorem step_writeOp {s : State} {op : BitVec 4} {rest : List Turn} (hb : s.busy = false)
    (h : s.turns = wrTurn 1#3 (op.setWidth 32) :: rest) : step s = .next { s with op := op, turns := rest } := by
  have hwrite := hostWriteReg_op (s := { s with turns := rest }) hb (op.setWidth 32)
  rw [extractLsb'_setWidth_self (by omega)] at hwrite
  exact (step_writeReg h).trans hwrite

theorem step_writeWidth {s : State} {w : Half} {rest : List Turn} (hb : s.busy = false)
    (h : s.turns = wrTurn 2#3 (w.setWidth 32) :: rest) : step s = .next { s with width := w, turns := rest } := by
  have hwrite := hostWriteReg_width (s := { s with turns := rest }) hb (w.setWidth 32)
  rw [extractLsb'_setWidth_self (by omega)] at hwrite
  exact (step_writeReg h).trans hwrite

theorem step_writeHeight {s : State} {v : Half} {rest : List Turn} (hb : s.busy = false)
    (h : s.turns = wrTurn 3#3 (v.setWidth 32) :: rest) : step s = .next { s with height := v, turns := rest } := by
  have hwrite := hostWriteReg_height (s := { s with turns := rest }) hb (v.setWidth 32)
  rw [extractLsb'_setWidth_self (by omega)] at hwrite
  exact (step_writeReg h).trans hwrite

/-- SETUP while BUSY = 0. -/
theorem run_setup {s : State} {op : BitVec 4} {w h : Half} {rest : List Turn} (hb : s.busy = false)
    (hturns : s.turns = setupTurns op w h ++ rest) :
    Host.Core.run Sys2Proof.core 3 s = .next { s with op := op, width := w, height := h, turns := rest } := by
  refine (run_succ (step_writeOp hb hturns) 2).trans ?_
  refine (run_succ (step_writeWidth (by exact hb) rfl) 1).trans ?_
  exact (run_succ (step_writeHeight (by exact hb) rfl) 0).trans rfl

/-- An idle machine that FILL and SETUP have made ready, with the turns to come. -/
def State.prepared (s : State) (op : BitVec 4) (w h : Half) (ps : List Word) (rest : List Turn) : State :=
  { s with imem := fillMem 0 ps s.imem, op := op, width := w, height := h, turns := rest }

theorem run_fill_setup {s : State} {op : BitVec 4} {w h : Half} {ps : List Word} {rest : List Turn}
    (hb : s.busy = false) (hfits : ps.length ≤ s.config.memPixels)
    (hturns : s.turns = fillTurns ps ++ (setupTurns op w h ++ rest)) :
    Host.Core.run Sys2Proof.core (ps.length + 3) s = .next (s.prepared op w h ps rest) := by
  have hfill := run_fill hb hturns (by omega)
  exact (run_add hfill 3).trans (run_setup hb rfl)

theorem memWord_prepared {s : State} {op : BitVec 4} {w h : Half} {ps : List Word} {rest : List Turn} {j : Nat}
    (hj : j < ps.length) (n : Nat) : memWord (s.prepared op w h ps rest).imem j n = ps.getD j 0#32 := by
  have hword := memWord_fillMem (i := 0) hj s.imem n
  rwa [Nat.zero_add] at hword

/-- Settles O51: O50 from the state that FILL and SETUP leave, whose raster is the words filled. -/
theorem normalSequenceConvertsTheRaster : Obligations.NormalSequenceConvertsTheRaster := by
  intro s op w h ps i T hb hlength hfits hi hT hturns
  have hprepare := run_fill_setup hb hfits (by rw [hturns, List.append_assoc])
  have hsize : (s.prepared op w h ps [startTurn]).rasterSize = ps.length := hlength.symm
  have hfilled : (s.prepared op w h ps [startTurn]).filled := fun j hj => by
    have hwritten := memWritten_fillMem (i := 0) (hsize ▸ hj) s.imem
    rwa [Nat.zero_add] at hwritten
  obtain ⟨t, hrun, hresult, hnoTurn⟩ := runTransformsTheWholeRaster (s.prepared op w h ps [startTurn])
    (pixelFunction T) rfl hb (hsize ▸ hfits) hfilled (runFunction_of_decode hi hT)
  refine ⟨t, ?run, hresult.status, hresult.errcode, hresult.op, hresult.width, hresult.height, hresult.scanx,
    hresult.scany, hnoTurn, hresult.config, fun j n hj => ⟨?_, ?_⟩, fun a ha => ⟨?_, ?_⟩⟩
  case run =>
    rw [hsize] at hrun
    have hsteps : ps.length + 4 + (ps.length + 1) = ps.length + 3 + (ps.length + 2) := by omega
    exact hsteps ▸ (run_add hprepare (ps.length + 2)).trans hrun
  · rw [hresult.pixels j (hsize ▸ hj), memWord_prepared hj]
  · rw [hresult.imem, memWord_prepared hj]
  · exact hresult.outside a (hsize ▸ ha)
  · rw [hresult.imem]
    exact memByte_fillMem_outside (.inr (by omega)) s.imem

end Sys2Proof.Machine

/-! PROOF. A run beside a host that keeps its duties (R242): the record of OMEM as it was before the run is read by no
engine step, each dutiful turn keeps the run on its way, and the run ends in the finish step (O52). -/

namespace Sys2Proof.Machine

/-! ### The record of OMEM before the run (log entry 10) -/

/-- The state with `b` as the record of OMEM before the run. -/
def State.withBefore (b : Mem) (s : State) : State := { s with race := { s.race with before := b } }

/-- The pixel step reads no record of OMEM before the run. -/
theorem engineTurn_withBefore {b : Mem} {s u : State} (hp : s.pixelEnabled = true)
    (h : engineTurn (s.withBefore b) = .next u) : ∃ v, engineTurn s = .next v ∧ u = v.withBefore b := by
  have enabled_absurd : (s.withBefore b).pixelEnabled ≠ false := ne_false_of_eq_true hp
  rcases engineTurn_cases h with ⟨i, T, hi, hT, hr, rfl⟩ | ⟨_, hn, _⟩ | ⟨hn, _⟩
  · exact ⟨s.afterPixel T, (engineTurn_pixel hp hi).trans (exec_ready hT hr), rfl⟩
  · exact absurd hn enabled_absurd
  · exact absurd hn enabled_absurd

/-! ### One turn of the run -/

/-- At the origin a run over a filled raster follows the scan position, with OMEM as the record. -/
theorem runFrom_origin {f : Word → Word} {s : State} (hinv : s.Inv) (hb : s.busy = true) (hx : s.scanx = 0#16)
    (hy : s.scany = 0#16) (hstale : s.race.stale = []) (hkept : s.race.kept = []) (hfilled : s.filled)
    (hcode : runFunction s = some f) : s.RunFrom f (s.withBefore s.omem) where
  follows := by
    have horigin : (s.withBefore s.omem).scanIndex = 0 := by simp [State.withBefore, State.scanIndex, hx, hy]
    exact ⟨⟨fun i hi => by omega, fun _ _ _ => rfl⟩, hstale, hkept, hcode, hfilled⟩
  scan := scanInside_or_atEnd_of_origin hx hy
  outside _ _ := rfl
  fits := hinv.runSize hb
  status := hinv.status_busy hb
  errcode := hinv.errcode_busy hb
  imem := rfl
  op := rfl
  width := rfl
  height := rfl
  config := rfl

/-- The run does not depend on the draws, the turns to come or the replies. -/
theorem State.RunFrom.update {f : Word → Word} {s t : State} (h : s.RunFrom f t) (d : Nat) (ts : List Turn)
    (rs : List Word) : s.RunFrom f { t with draws := d, turns := ts, replies := rs } :=
  { h with follows := h.follows.update d ts rs }

/-- What a host that keeps its duties does is legal. -/
theorem wf_of_turnKeepsDuties {m : HostMove} {n : Nat} (h : turnKeepsDuties n (.host m) = true) : m.wf n = true := by
  cases m with
  | writeReg idx v => rfl
  | readReg idx => rfl
  | writeMem sp i w => cases h
  | readMem sp i =>
    cases sp with
    | imem => exact h
    | omem => cases h

/-- While words are left to transform, a turn within the host's duties keeps the run on its way, and the engine's turn
brings it one word further. -/
theorem State.RunFrom.step_dutiful {f : Word → Word} {b : Mem} {s t : State} {u : Turn} {rest : List Turn}
    (h : s.RunFrom f (t.withBefore b)) (hturns : t.turns = u :: rest)
    (hduty : turnKeepsDuties s.config.memPixels u = true) (hroom : t.scanIndex + [u].count .engine ≤ s.rasterSize) :
    ∃ v, step t = .next v ∧ s.RunFrom f (v.withBefore b) ∧ v.scanIndex = t.scanIndex + [u].count .engine ∧
      v.turns = rest := by
  have hrest : s.RunFrom f (({ t with turns := rest } : State).withBefore b) := h.update t.draws rest t.replies
  cases u with
  | engine =>
    rcases hrest.scan with hin | hend
    · obtain ⟨_, hturn, hnext, hindex, hnextTurns⟩ := hrest.pixelStep hin
      have hp : ({ t with turns := rest } : State).pixelEnabled = true := hin.pixelEnabled hrest.busy
      obtain ⟨v, hv, rfl⟩ := engineTurn_withBefore hp hturn
      exact ⟨v, (step_engine hturns).trans hv, hnext, hindex, hnextTurns⟩
    · have hindex : t.scanIndex = s.rasterSize := hend.scanIndex_eq.trans hrest.rasterSize_eq
      rw [List.count_singleton_self] at hroom
      omega
  | host m =>
    have hlegal : m.wf t.config.memPixels = true := by
      have hconfig : t.config = s.config := h.config
      rw [hconfig]; exact wf_of_turnKeepsDuties hduty
    obtain ⟨v, hv⟩ := hostMove_completes (s := { t with turns := rest }) hlegal
    obtain ⟨d, rs, rfl⟩ := hostMove_dutiful (s := { t with turns := rest }) hrest.busy hduty hv
    exact ⟨_, (step_host hturns).trans hv, hrest.update d rest rs, rfl, rfl⟩
  | reset => cases hduty

/-! ### The turns of the run, and its end -/

/-- Turns within the host's duties, at most as many of them the engine's as words are left, bring the run as many
words further as the engine has turns. -/
theorem State.RunFrom.run_dutiful {f : Word → Word} {b : Mem} {s t : State} {us rest : List Turn}
    (h : s.RunFrom f (t.withBefore b)) (hturns : t.turns = us ++ rest)
    (hduties : ∀ u ∈ us, turnKeepsDuties s.config.memPixels u = true)
    (hroom : t.scanIndex + us.count .engine ≤ s.rasterSize) :
    ∃ v, Host.Core.run Sys2Proof.core us.length t = .next v ∧ s.RunFrom f (v.withBefore b) ∧
      v.scanIndex = t.scanIndex + us.count .engine ∧ v.turns = rest := by
  induction us generalizing t with
  | nil => exact ⟨t, rfl, h, rfl, hturns⟩
  | cons u us ih =>
    have hcount : (u :: us).count .engine = [u].count .engine + us.count .engine := List.count_append (l₁ := [u])
    obtain ⟨hduty, hdutiesRest⟩ := List.forall_mem_cons.mp hduties
    obtain ⟨v, hstep, hv, hindex, hvturns⟩ := h.step_dutiful hturns hduty (by omega)
    obtain ⟨w, hrun, hw, hwindex, hwturns⟩ := ih hv hvturns hdutiesRest (by omega)
    exact ⟨w, (run_succ hstep us.length).trans hrun, hw, by omega, hwturns⟩

/-- With every word behind the scan position the engine's turn is the finish step, which leaves the run's result. -/
theorem State.RunFrom.step_finish {f : Word → Word} {b : Mem} {s t : State} {rest : List Turn}
    (h : s.RunFrom f (t.withBefore b)) (hturns : t.turns = .engine :: rest) (hall : t.scanIndex = s.rasterSize) :
    ∃ v, step t = .next v ∧ RunResult f s v ∧ v.turns = rest := by
  have hrest : s.RunFrom f (({ t with turns := rest } : State).withBefore b) := h.update t.draws rest t.replies
  rcases hrest.scan with hin | hend
  · have hlt : t.scanIndex < s.rasterSize := hrest.rasterSize_eq ▸ scanIndex_lt_rasterSize hin.1 hin.2
    omega
  · obtain ⟨_, hresult⟩ := hrest.finishStep hend
    have hfinish : ({ t with turns := rest } : State).finishEnabled = true := hend.finishEnabled hrest.busy
    exact ⟨_, (step_engine hturns).trans (engineTurn_finish hfinish), hresult, rfl⟩

/-- Settles O52: the dutiful turns bring the run from the origin to the end of the raster, and the last turn finishes
it. -/
theorem runIsUndisturbedByADutifulHost : Obligations.RunIsUndisturbedByADutifulHost := by
  intro s f us hinv hb hx hy hstale hkept hfilled hcode hturns hduties hcount
  have horigin : s.scanIndex = 0 := by simp [State.scanIndex, hx, hy]
  obtain ⟨v, hrun, hv, hindex, hvturns⟩ :=
    (runFrom_origin hinv hb hx hy hstale hkept hfilled hcode).run_dutiful hturns hduties (by omega)
  obtain ⟨t, hstep, hresult, hnoTurn⟩ := hv.step_finish hvturns (by omega)
  exact ⟨t, (run_add hrun 1).trans (run_succ hstep 0), hresult, hnoTurn⟩

end Sys2Proof.Machine

/-! PROOF. The error entry and reset: a START that is refused (R206, R207, R210, R211), the reset event (R235), and the
first START after it (R236; O33, O41, O42). -/

namespace Sys2Proof.Machine

/-! ### A refused START (R210, R211) -/

theorem execStart_illegalOp {s : State} (hb : s.busy = false) (ho : s.op = 15#4) :
    execStart s = .next (s.clearReport.raiseErr .illegalOp) := by
  rw [execStart, if_neg (Bool.eq_false_iff.mp hb), if_pos ho]

theorem execStart_badDim {s : State} (hb : s.busy = false) (ho : s.op ≠ 15#4)
    (hsize : s.config.memPixels < s.rasterSize) : execStart s = .next (s.clearReport.raiseErr .badDim) := by
  rw [execStart, if_neg (Bool.eq_false_iff.mp hb), if_neg ho, if_pos hsize]

/-- Settles O33: both branches of START with an error, and the one that ignores it. -/
theorem refusedStartReportsOneError : Obligations.RefusedStartReportsOneError :=
  ⟨fun _ hb => execStart_busy hb,
    fun s hb ho => ⟨_, execStart_illegalOp hb ho, s.raiseErr_status_idle .illegalOp hb, rfl, rfl, rfl,
      sameBesideReport_update ..⟩,
    fun s hb ho hsize => ⟨_, execStart_badDim hb ho hsize, s.raiseErr_status_idle .badDim hb, rfl, rfl, rfl,
      sameBesideReport_update ..⟩⟩

/-! ### Reset (R235, R236) -/

/-- Reset leaves no flag of STATUS set. -/
theorem resetEvent_flags (s : State) :
    s.resetEvent.busy = false ∧ s.resetEvent.done = false ∧ s.resetEvent.err = false := by
  simp [State.busy, State.done, State.err]

/-- Settles O41: the fields of the state that the reset event leaves. -/
theorem resetEventClearsTheRegisters : Obligations.ResetEventClearsTheRegisters := by
  intro s rest hturns
  obtain ⟨hbusy, hdone, herr⟩ := resetEvent_flags { s with turns := rest }
  exact ⟨_, step_reset hturns, rfl, rfl, rfl, hbusy, hdone, herr, rfl, rfl, rfl, fun _ => ⟨rfl, rfl⟩, rfl, rfl⟩

/-- Every register reads 0 right after reset (R37). -/
theorem readReg_reset (r : CtrlReg) : readReg r State.reset = 0#32 := by
  cases r <;> rfl

/-- Settles O42: the reset state is idle with an empty raster, so the START is accepted and the run's only step is the
finish step. -/
theorem startRightAfterResetCompletes : Obligations.StartRightAfterResetCompletes := by
  have hidle : State.reset.busy = false := rfl
  have hop : State.reset.op ≠ 15#4 := by simp [State.reset]
  have hempty : State.reset.rasterSize = 0 := rfl
  have hstatus := State.reset.beginRun_status_idle hidle
  have hfinish := beginRun_finishEnabled (s := State.reset.clearReport) hempty
  exact ⟨engineTurn_idle hidle, fun idx => readReg_reset (decodeReg idx), _, _,
    execStart_accepted hidle hop (hempty ▸ Nat.zero_le _), hstatus, engineTurn_finish hfinish,
    State.finishRun_status_busy _ hstatus⟩

end Sys2Proof.Machine
